-- ==== Sys2Proof/Word.lean ====
section
/-! DEFINITION. The words of the CZ-6240 and tables of a fixed number of like things. -/

namespace Sys2Proof

/-- One byte of a frame. -/
abbrev Byte := BitVec 8

/-- A 16-bit field: slot numbers, sweep numbers, index fields, the phase of a group. -/
abbrev Half := BitVec 16

/-- A 32-bit field: slot values, argument words and returned words. -/
abbrev Word := BitVec 32

/-- The table that holds `x` at every number. -/
def fill (n : Nat) {α : Type} (x : α) : Vector α n := Vector.replicate n x

end Sys2Proof

/-- The entry of a table at a number. -/
def Vector.entry {n : Nat} {α : Type} (t : Vector α n) (i : Fin n) : α := t[i.val]

/-- `t` with the entry at `i` replaced by what `f` makes of it. -/
def Vector.alter {n : Nat} {α : Type} (t : Vector α n) (i : Fin n) (f : α → α) : Vector α n :=
  t.set i.val (f (t.entry i)) i.isLt

/-- Every entry of `t` replaced by what `f` makes of its number and of it. -/
def Vector.alterAll {n : Nat} {α β : Type} (t : Vector α n) (f : Fin n → α → β) : Vector β n :=
  ⟨(List.ofFn (fun i => f i (t.entry i))).toArray, by simp⟩

@[simp] theorem Vector.entry_fill {n : Nat} {α : Type} (x : α) (i : Fin n) :
    (Sys2Proof.fill n x).entry i = x := by
  simp [Sys2Proof.fill, Vector.entry]

@[simp] theorem Vector.entry_alter_same {n : Nat} {α : Type} (t : Vector α n) (i : Fin n) (f : α → α) :
    (t.alter i f).entry i = f (t.entry i) := by
  simp [Vector.alter, Vector.entry]

theorem Vector.entry_alter_of_ne {n : Nat} {α : Type} (t : Vector α n) {i j : Fin n} (f : α → α)
    (h : j ≠ i) : (t.alter i f).entry j = t.entry j := by
  have h' : i.val ≠ j.val := fun e => h (Fin.ext e.symm)
  simp [Vector.alter, Vector.entry, h']

theorem Vector.entry_alter {n : Nat} {α : Type} (t : Vector α n) (i j : Fin n) (f : α → α) :
    (t.alter i f).entry j = if j = i then f (t.entry j) else t.entry j := by
  by_cases h : j = i
  · subst h; simp
  · simp [Vector.entry_alter_of_ne t f h, h]

@[simp] theorem Vector.entry_alterAll {n : Nat} {α β : Type} (t : Vector α n) (f : Fin n → α → β)
    (i : Fin n) : (t.alterAll f).entry i = f i (t.entry i) := by
  simp [Vector.alterAll, Vector.entry]

theorem Vector.ext_entry {n : Nat} {α : Type} {t u : Vector α n} (h : ∀ i, t.entry i = u.entry i) :
    t = u := by
  apply Vector.ext
  intro i hi
  exact h ⟨i, hi⟩

@[simp] theorem Vector.alter_alter {n : Nat} {α : Type} (t : Vector α n) (i : Fin n) (f g : α → α) :
    (t.alter i f).alter i g = t.alter i (fun x => g (f x)) := by
  apply Vector.ext_entry
  intro j
  simp only [Vector.entry_alter]
  split <;> rfl
end

