-- ==== Sys2Proof/Config.lean ====
section
/-! DEFINITION. The fixed sizes and ranges of the CZ-6240, each with the rule that gives it. The spec leaves no value free:
no constant here is opaque. -/

namespace Sys2Proof.Config

/-- R1: a lane holds at most four waiting frames besides the one in hand. -/
def waitingRoom : Nat := 4
/-- R4: where a bad-frame count stays. -/
def badFrameMax : Nat := 65535
/-- R2: the sizes a frame may have. -/
def frameSizeMin : Nat := 7
/-- R2: the sizes a frame may have. -/
def frameSizeMax : Nat := 4096
/-- R3: the most slots of a sweep. -/
def slotMax : Nat := 384
/-- R3: the most items of a service frame and the most results of a reply. -/
def itemMax : Nat := 64
/-- R3: the most argument words of an item and the most returned words of a result. -/
def argMax : Nat := 12
/-- 1.4: a valid force lies within plus or minus this many force counts. -/
def forceMax : Int := 400000
/-- Figure 4-1: the greatest amplitude of a CYCLIC entry. -/
def amplitudeMax : Nat := 200000
/-- Figure 4-1: the greatest phase step. -/
def stepMax : Nat := 16384
/-- Figure 4-1: the greatest group limit. -/
def sumLimitMax : Nat := 6400000
/-- R60: where a total count stays. -/
def totalMax : Nat := 4294967295
/-- R60: where a block count stays; Figure 4-3: the greatest target. -/
def blockMax : Nat := 16777215
/-- R63: the most entries of a block schedule. -/
def scheduleMax : Nat := 16
/-- R102: where a conditioned strain is stopped. -/
def strainMax : Int := 50000
/-- Figure 6-4: the greatest hysteresis. -/
def hysteresisMax : Nat := 5000
/-- R110: where a warn-entry count stops. -/
def warnMax : Nat := 65535
/-- R122: the greatest hit count of one report. -/
def hitMax : Nat := 65535
/-- R123: where an accumulator stops. -/
def accumulatorMax : Nat := 16777215
/-- R144: the most records of the capture log. -/
def captureRoom : Nat := 32
/-- R163: the most replies of the reply queue. -/
def replyRoom : Nat := 4
/-- R140: the greatest source number. -/
def sourceMax : Nat := 383

end Sys2Proof.Config
end

