-- ==== Sys2Proof/Syntax.lean ====
section
/-! DEFINITION. The commands of the CZ-6240: one constructor for each row of spec/opcode_table.json. -/

namespace Sys2Proof

/-- A frame group G1 to G6 by its number less one. -/
abbrev Group := Fin 6
/-- An actuator A1 to A16 by its number less one. -/
abbrev Actuator := Fin 16
/-- A marker line 1 to 4 by its number less one. -/
abbrev Line := Fin 4

/-- The two lanes (01 section 2.1): the outbound lane lies between OUT-IN and OUT-OUT, the return lane between RET-IN and
RET-OUT. -/
inductive LaneId where
  | outbound
  | ret
deriving DecidableEq, Repr

/-- The four blocks a return sweep passes through, in order (R6). -/
inductive ReturnBlock where
  | feedbackIntake
  | strainBlock
  | crackWatch
  | statusWriter
deriving DecidableEq, Repr

/-- How far the return lane takes its sweep: through the blocks as far as `block`, of which it hands the alarm table all the
raises, or, where `raises` holds a number, only as many more of them as it says, so that raises from elsewhere may come before
the rest (R132). -/
structure ReturnReach where
  block : ReturnBlock
  raises : Option Nat
deriving DecidableEq, Repr

/-- The events that R28 lets fall while an outbound sweep is being shaped. DESIGN CHOICE log 9: the end of a sending at RET-OUT
is none of them, so the work of at most one return sweep falls within the shaping of one outbound sweep, and a second one is
taken before it or after it. The two lanes are independent (R1), and the spec leaves open whether the first return sweep may
leave RET-OUT and a second be taken while one outbound sweep is being shaped. Frames that arrive are taken before it or after
it too. Unsafe. -/
inductive MidEvent where
  /-- The return lane takes its sweep on (R28, R113, R132). -/
  | returnWork (through : ReturnReach)
  /-- The sweep watch expires (R158). -/
  | watchExpiry
  /-- The interlock takes the report that ends the group's engage interval (R84). -/
  | engageEnd (g : Group)
deriving DecidableEq, Repr

/-- The commands. A service item carries its index field and its argument words (Figure 2-8). -/
inductive Instr where
  /-- FRAME_ARRIVAL (R1): a frame has been received whole at the lane's input port. -/
  | frameArrival (lane : LaneId) (bytes : List Byte)
  /-- OUTBOUND_SWEEP (R26): the outbound lane takes the sweep at the head of its waiting frames. `during` holds the events
  that fall while the sweep is being shaped (R28, R132). Each group has five places for them, in this order: before it is dealt
  with; at a block boundary, between its end action and its capture (R69); between stages 2 and 3; between stages 6 and 7;
  between stages 7 and 8. The lists of `during` fall at the places of the groups in the order of R26, and those beyond the last
  group fall after it. -/
  | outboundSweep (during : List (List MidEvent))
  /-- ENGAGE_INTERVAL_END (R84): the interlock takes the group's report that ends its engage interval. -/
  | engageIntervalEnd (g : Group)
  /-- RETURN_SWEEP (R6): the return lane takes its sweep on through the blocks as far as `through` says; the block
  `statusWriter` takes it through all of them and sends it. -/
  | returnSweep (through : ReturnReach)
  /-- FRAME_PASS_THROUGH (R5, R6): the lane takes a frame that it sends on byte for byte. -/
  | framePassThrough (lane : LaneId)
  /-- SWEEP_WATCH_EXPIRY (R158). -/
  | sweepWatchExpiry
  /-- STAND_IN_EXPIRY (R159). -/
  | standInExpiry
  /-- MARKER_PULSE_EXPIRY (R153): the pulse timer of the line expires. -/
  | markerPulseExpiry (line : Line)
  /-- FRAME_SENT (R7): the sending of the lane's frame at its output port ends. -/
  | frameSent (lane : LaneId)
  /-- REPLY_SENT (R171): the sending of the head reply at RET-OUT ends. -/
  | replySent
  /-- RESET_ASSERT (R9). -/
  | resetAssert
  /-- RESET_RELEASE (R9). -/
  | resetRelease
  /-- POWER_ON (R9, R173). -/
  | powerOn
  /-- STARTUP_COMPLETE (R11): start-up completes with this number at the strap pins. -/
  | startupComplete (straps : BitVec 6)
  /-- SERVICE_FRAME (R165): the service handler takes the service frame at the head of the outbound lane. -/
  | serviceFrame
  /-- PAGE (R167). -/
  | page (index : Half) (args : List Word)
  /-- QUIET (R167). -/
  | quiet (index : Half) (args : List Word)
  /-- MAP (R15 to R17). -/
  | map (index : Half) (args : List Word)
  /-- ACTUATOR (R89). -/
  | actuator (index : Half) (args : List Word)
  /-- GROUP (R91). -/
  | group (index : Half) (args : List Word)
  /-- PAGE_GROUP (R56). -/
  | pageGroup (index : Half) (args : List Word)
  /-- PAGE_ACT (R57). -/
  | pageAct (index : Half) (args : List Word)
  /-- SHAPE (R50). -/
  | shape (index : Half) (args : List Word)
  /-- CAL (R97). -/
  | cal (index : Half) (args : List Word)
  /-- LIMIT (R104). -/
  | limit (index : Half) (args : List Word)
  /-- CRACK (R116). -/
  | crack (index : Half) (args : List Word)
  /-- COINC (R127). -/
  | coinc (index : Half) (args : List Word)
  /-- BLOCK (R64, R65). -/
  | block (index : Half) (args : List Word)
  /-- CAPTURE_CFG (R149). -/
  | captureCfg (index : Half) (args : List Word)
  /-- MARKER (R152). -/
  | marker (index : Half) (args : List Word)
  /-- WATCH (R161). -/
  | watch (index : Half) (args : List Word)
  /-- FLOOR (R138). -/
  | floor (index : Half) (args : List Word)
  /-- COMMIT (R58). -/
  | commit (index : Half) (args : List Word)
  /-- RELEASE (R76 to R78). -/
  | release (index : Half) (args : List Word)
  /-- HOLD (R79). -/
  | hold (index : Half) (args : List Word)
  /-- UNLOAD (R80). -/
  | unload (index : Half) (args : List Word)
  /-- DISENGAGE (R81). -/
  | disengage (index : Half) (args : List Word)
  /-- ACK (R140). -/
  | ack (index : Half) (args : List Word)
  /-- RESET_SCHEDULE (R62). -/
  | resetSchedule (index : Half) (args : List Word)
  /-- CAPTURE (R148). -/
  | capture (index : Half) (args : List Word)
  /-- CLEAR_FLAGS (R170). -/
  | clearFlags (index : Half) (args : List Word)
  /-- RESTART (R172). -/
  | restart (index : Half) (args : List Word)
  /-- READ (R169). -/
  | read (index : Half) (args : List Word)
  /-- READ_PENDING (R142). -/
  | readPending (index : Half) (args : List Word)
  /-- READ_CAPTURE (R150). -/
  | readCapture (index : Half) (args : List Word)
  /-- READ_RESET_CAUSE (R173). -/
  | readResetCause (index : Half) (args : List Word)
  /-- SUPPLIES_STEADY (R9): the supplies become steady after power-on. -/
  | suppliesSteady
deriving DecidableEq, Repr

end Sys2Proof
end

