-- ==== Sys2Proof/Machine/State.lean ====
section
/-! DEFINITION. The state of the CZ-6240, block by block as Figure 1-1 lists them, as plain data; and the state after reset. -/

namespace Sys2Proof.Machine

open Sys2Proof

/-! ### Slots, roles and frames (01) -/

/-- Figure 2-3: the eight qualities. -/
inductive Quality where
  | none | good | held | limited | saturated | uncomp | uncal | fault
deriving DecidableEq, Repr

/-- Figure 2-4: the roles other than NONE. -/
inductive Role where
  | setpoint (a : Actuator)
  | feedback (a : Actuator)
  | strain (c : Fin 256)
  | crack (k : Fin 64)
  | statusGroups
  | statusFlags
  | notice
  | noticeSeq
deriving DecidableEq, Repr

/-- R13: a slot number tied to a role. -/
structure Binding where
  slot : Half
  role : Role
deriving DecidableEq, Repr

/-- Figure 2-7: one slot of a sweep. `kind` and `quality` are the bytes as carried (R12). -/
structure Slot where
  number : Half
  kind : Byte
  quality : Byte
  value : Word
deriving DecidableEq, Repr

/-- Figure 2-7: a sweep, less the fields that follow from its slots (declared length, slot count, CRC). -/
structure Sweep where
  origin : Byte
  governor : Byte
  number : Half
  slots : List Slot
deriving DecidableEq, Repr

/-- A frame waiting on a lane (R1). `bypassed` is the lane's condition at its arrival, which sets its treatment (R10);
`map` is the slot map at the arrival of a sweep on the return lane (R19), and empty for every other frame. -/
structure Waiting where
  bytes : List Byte
  bypassed : Bool
  map : List Binding
deriving DecidableEq, Repr

/-- The reset line, the supplies, start-up, the node address and the reset cause record (R9, R11, R173). -/
structure ResetUnit where
  lineHeld : Bool
  suppliesSteady : Bool
  startup : Bool
  nodeAddress : BitVec 6
  causePower : Bool
  causeLine : Bool
  causeService : Bool
deriving DecidableEq, Repr

/-! ### Group states, actions and sources (04, 07) -/

/-- Figure 5-1: the interlock states. -/
inductive GroupState where
  | off | engaging | run | hold | unload | rest
deriving DecidableEq, Repr

/-- Figure 2-11: the actions. -/
inductive Action where
  | note | hold | unload
deriving DecidableEq, Repr

/-- Figure 8-1: the 357 sources. -/
inductive Source where
  | timeout
  | groupSum (g : Group)
  | drive (a : Actuator)
  | blockStop (g : Group)
  | coincidence (n : Fin 8)
  | crack (k : Fin 64)
  | strain (c : Fin 256)
deriving DecidableEq, Repr

/-- R86: the causes of a hold cause record. -/
inductive CauseKind where
  | command | alarm | timeout | inspect | incomplete | sum | drive
deriving DecidableEq, Repr

/-- R86: a hold cause record. The source is absent for cause COMMAND. -/
structure HoldCause where
  cause : CauseKind
  source : Option Source
  sweep : Half
deriving DecidableEq, Repr

/-- R132: what a raise carries. `capture` is the flag of a strain, crack or coincidence source; `handed` is the hold cause a
block boundary hands over. -/
structure Raise where
  source : Source
  level : Nat
  action : Action
  mask : BitVec 6
  sweep : Half
  capture : Bool
  handed : CauseKind
deriving DecidableEq, Repr

/-! ### Lanes (01) -/

/-- The frame a lane has in hand (R1). -/
inductive Hand where
  /-- A return sweep in processing, with the map it is processed against (R19), the block that has it next (R6), and the
  raises of the block before that are still to be handed to the alarm table (R132). -/
  | processing (sweep : Sweep) (map : List Binding) (next : ReturnBlock) (owed : List Raise)
  /-- A frame ready to be sent (R7). -/
  | ready (bytes : List Byte)
  /-- A frame whose sending has begun (R7). -/
  | sending (bytes : List Byte)
deriving DecidableEq, Repr

/-- One lane with its output port (R1, R4, R10). -/
structure Lane where
  bypass : Bool
  badFrames : Nat
  waiting : List Waiting
  hand : Option Hand
deriving DecidableEq, Repr

/-! ### Load shaper (02) -/

/-- What the shaper keeps for an actuator (Figure 3-1). -/
structure ActuatorOutput where
  kept : Option Int
  hold : Option Int
  lastQuality : Quality
deriving DecidableEq, Repr

/-- What the shaper keeps for a group (Figure 3-1). -/
structure GroupShape where
  theta : Half
  lastShaped : Option GroupState
  cycling : Bool
  sumArmed : Bool
deriving DecidableEq, Repr

/-- The load shaper. `lastTaken` is the number of the last outbound sweep it has taken, 0 if none since reset (R86, R165). -/
structure Shaper where
  acts : Vector ActuatorOutput 16
  groups : Vector GroupShape 6
  lastTaken : Half
deriving DecidableEq, Repr

/-! ### Page store and cycle sequencer (03) -/

/-- Figure 4-1: the mode of an actuator entry. -/
inductive Mode where
  | direct | cyclic
deriving DecidableEq, Repr

/-- Figure 4-1: an actuator entry of a page. -/
structure PageEntry where
  mode : Mode
  mean : Int
  amplitude : Nat
  offset : Half
  shape : Fin 4
  fmin : Int
  fmax : Int
  slew : Nat
deriving DecidableEq, Repr

/-- Figure 4-1: a page: phase step P, group limit Gmax, and the actuator entries. -/
structure Page where
  step : Nat
  sumLimit : Nat
  entries : Vector (Option PageEntry) 16
deriving DecidableEq, Repr

/-- The pages of a group (R53). -/
structure GroupPages where
  pages : Vector Page 4
  active : Fin 4
  pendingPage : Option (Fin 4)
  overridden : Bool
deriving DecidableEq, Repr

/-- Figure 4-3: the end action of a block. -/
inductive EndAction where
  | cont | inspect | unload
deriving DecidableEq, Repr

/-- Figure 4-3: an entry of a block schedule. -/
structure BlockEntry where
  target : Nat
  page : Fin 4
  endAction : EndAction
deriving DecidableEq, Repr

/-- The counts and the schedule of a group (R60, R63). -/
structure GroupCycles where
  total : Nat
  block : Nat
  schedule : List BlockEntry
  pointer : Nat
deriving DecidableEq, Repr

/-! ### Interlock controller (04) -/

/-- R90: a group record. -/
structure GroupRecord where
  unloadRate : Nat
  engageInterval : Nat
  lead : Option Group
  sumLevel : Nat
  blockLevel : Nat
deriving DecidableEq, Repr

/-- The interlock of a group (R74, R86, R90). `reportDue` is the model's own: the report of R84 that ends the engage
interval has been made and the interlock has not yet taken it (log 10). -/
structure GroupLock where
  state : GroupState
  engageCount : Nat
  reportDue : Bool
  cause : Option HoldCause
  record : GroupRecord
deriving DecidableEq, Repr

/-- The actuator record, the seed and the drive-fault arming of an actuator (R88, R92, R93). -/
structure ActuatorLock where
  group : Option Group
  floor : Int
  level : Nat
  seed : Option Int
  armed : Bool
deriving DecidableEq, Repr

/-- The interlock controller. -/
structure Interlock where
  groups : Vector GroupLock 6
  acts : Vector ActuatorLock 16
deriving DecidableEq, Repr

/-! ### Strain block (05) -/

/-- R97: a calibration record. -/
structure Calibration where
  zero : Int
  gain : Nat
  comp : Option (Fin 256)
deriving DecidableEq, Repr

/-- Figure 6-4: a limit record. -/
structure LimitRecord where
  warnLow : Int
  warnHigh : Int
  stopLow : Int
  stopHigh : Int
  hysteresis : Nat
  debounce : Nat
  level : Nat
  action : Action
  mask : BitVec 6
  capture : Bool
deriving DecidableEq, Repr

/-- R107: watch states and bands. -/
inductive Band where
  | normal | warn | stop
deriving DecidableEq, Repr

/-- R96: the direction of a run. -/
inductive Direction where
  | moreSevere | lessSevere
deriving DecidableEq, Repr

/-- Figure 6-1: one strain channel. -/
structure StrainChannel where
  cal : Option Calibration
  limit : Option LimitRecord
  watch : Band
  debounce : Nat
  run : Option (Direction × Band)
  warnCount : Nat
  latest : Option (Int × Quality)
  armed : Bool
deriving DecidableEq, Repr

/-! ### Crack watch (06) -/

/-- Figure 7-2: the kinds of crack channel record. -/
inductive CrackKind where
  | wire | ae
deriving DecidableEq, Repr

/-- Figure 7-2: a crack channel record. -/
structure CrackRecord where
  kind : CrackKind
  debounce : Nat
  decay : Nat
  threshold : Nat
  level : Nat
  action : Action
  mask : BitVec 6
  capture : Bool
deriving DecidableEq, Repr

/-- Figure 7-1: one crack channel. -/
structure CrackChannel where
  record : Option CrackRecord
  condition : Bool
  sensorFault : Bool
  debounce : Nat
  accumulator : Nat
  armed : Bool
deriving DecidableEq, Repr

/-- Figure 7-3: a coincidence set record. -/
structure CoincidenceRecord where
  members : List (Fin 64)
  minimum : Nat
  level : Nat
  action : Action
  mask : BitVec 6
  capture : Bool
deriving DecidableEq, Repr

/-- R126: one coincidence set. -/
structure CoincidenceSet where
  record : Option CoincidenceRecord
  armed : Bool
  lastCount : Nat
deriving DecidableEq, Repr

/-! ### Alarm table (07) -/

/-- R131: an entry of the alarm table. -/
structure Entry where
  source : Source
  level : Nat
  action : Action
  mask : BitVec 6
  seq : Half
  sweep : Half
deriving DecidableEq, Repr

/-- R131: the alarm table. The entries have no stored order in the part; the list holds them in presentation order (log 19).
-/
structure AlarmTable where
  entries : List Entry
  floor : Nat
  counter : Half
deriving DecidableEq, Repr

/-! ### Capture log and marker lines (08) -/

/-- R146: what asked for a capture, with the fields it supplies. -/
inductive Trigger where
  | raised (source : Source) (seq : Half)
  | block (lead : Group)
  | manual
deriving DecidableEq, Repr

/-- Figure 9-1: a capture record. -/
structure CaptureRecord where
  seq : Half
  trigger : Trigger
  sweep : Half
  states : Vector GroupState 6
  totals : Vector Nat 6
  pointers : Vector Nat 6
  outputs : List (Actuator × Int)
  strains : List (Fin 256 × Int × Quality)
deriving DecidableEq, Repr

/-- R144: the capture log. -/
structure CaptureLog where
  queue : List CaptureRecord
  nextSeq : Half
  watchList : List (Fin 256)
  watermark : Nat
  lost : Bool
deriving DecidableEq, Repr

/-- Figure 9-2: the kinds of marker line. -/
inductive MarkerKind where
  | none | valley | peak | block | capture | held | notice
deriving DecidableEq, Repr

/-- R151: the settings of a marker line and its pulse timer. `group` is the group number, 0 or 1..6. The timer is absent
when stopped, and holds the width it was started with while it runs. -/
structure MarkerLine where
  kind : MarkerKind
  group : Nat
  width : Nat
  activeLow : Bool
  timer : Option Nat
deriving DecidableEq, Repr

/-! ### Sweep watch and stand-in generator (09) -/

/-- Figure 10-1: the watch settings. -/
structure WatchSettings where
  interval : Nat
  action : Action
  level : Nat
  enable : Bool
  period : Nat
deriving DecidableEq, Repr

/-- Figure 10-2: the watch states. -/
inductive WatchState where
  | disarmed | running | expired
deriving DecidableEq, Repr

/-- R156: the sweep watch and the stand-in generator. A timer is absent when stopped, and holds the interval or period it
was started with while it runs (R161). -/
structure SweepWatch where
  settings : WatchSettings
  state : WatchState
  timer : Option Nat
  lastController : Half
  originating : Bool
  standTimer : Option Nat
  lastOriginated : Half
deriving DecidableEq, Repr

/-! ### Service handler (10) -/

/-- Figure 2-11: the result codes. -/
inductive ResultCode where
  | ok | unknown | badIndex | badValue | state | bound | chain | pageActive | pagePending | commitBusy | shapeInUse
  | incomplete | latched | noFeedback | notPending | noPage | orphan | empty
deriving DecidableEq, Repr

/-- Figure 2-8: one result of a reply. -/
structure ItemResult where
  code : Byte
  result : ResultCode
  index : Half
  words : List Word
deriving DecidableEq, Repr

/-- A reply of the reply queue. `restart` marks the reply that carries a RESTART (R172). -/
structure Reply where
  bytes : List Byte
  restart : Bool
deriving DecidableEq, Repr

/-- The service handler (R163, R167, R172). `page`, `quiet`, `results` and `frameEnded` are of the frame being applied. -/
structure ServiceHandler where
  page : Option (Fin 4)
  quiet : Bool
  results : List ItemResult
  frameEnded : Bool
  replies : List Reply
  replySending : Bool
  svcDrop : Bool
  restartPending : Bool
deriving DecidableEq, Repr

/-! ### The whole part -/

/-- The state of the part. `pending` is the queue of the commands that wait, first in, first out. -/
structure State where
  pending : List Instr
  unit : ResetUnit
  outLane : Lane
  retLane : Lane
  slotMap : List Binding
  shaper : Shaper
  pages : Vector GroupPages 6
  shapes : Vector (Vector Int 256) 4
  cycles : Vector GroupCycles 6
  interlock : Interlock
  strain : Vector StrainChannel 256
  crack : Vector CrackChannel 64
  sets : Vector CoincidenceSet 8
  alarm : AlarmTable
  captures : CaptureLog
  markers : Vector MarkerLine 4
  watch : SweepWatch
  service : ServiceHandler
deriving DecidableEq, Repr

/-- No rule of the spec stops the part, so there is no fault: a closed inductive without constructors. -/
inductive Fault where
deriving DecidableEq, Repr

/-- Why a command has no meaning. -/
inductive Refusal where
  /-- Raised by an arm of `exec` whose command has no meaning yet. No arm raises it. Safe: the machine stops. -/
  | notModelled (mnemonic : String)
deriving DecidableEq, Repr

/-! ### Reset values, each given beside the rule that states it -/

/-- R9, R10: a lane after reset. -/
def Lane.atReset : Lane := { bypass := true, badFrames := 0, waiting := [], hand := Option.none }

/-- R9, R11, R173: the unit after power-on, the supplies steady and the line released, start-up in progress. DESIGN CHOICE
log 4: of the moments after reset this is the one `State.reset` stands for. Unsafe. -/
def ResetUnit.atReset : ResetUnit :=
  { lineHeld := false, suppliesSteady := true, startup := true, nodeAddress := 0
    causePower := true, causeLine := false, causeService := false }

/-- R25. -/
def ActuatorOutput.atReset : ActuatorOutput := { kept := Option.none, hold := Option.none, lastQuality := .none }

/-- R25. -/
def GroupShape.atReset : GroupShape := { theta := 0, lastShaped := Option.none, cycling := false, sumArmed := true }

/-- R25, R86. -/
def Shaper.atReset : Shaper :=
  { acts := fill 16 ActuatorOutput.atReset, groups := fill 6 GroupShape.atReset, lastTaken := 0 }

/-- R53, R56: a page at its reset content. -/
def Page.atReset : Page := { step := 0, sumLimit := 0, entries := fill 16 Option.none }

/-- R53. -/
def GroupPages.atReset : GroupPages :=
  { pages := fill 4 Page.atReset, active := 0, pendingPage := Option.none, overridden := false }

/-- R60, R63. -/
def GroupCycles.atReset : GroupCycles := { total := 0, block := 0, schedule := [], pointer := 0 }

/-- R90. -/
def GroupRecord.atReset : GroupRecord :=
  { unloadRate := 100, engageInterval := 10, lead := Option.none, sumLevel := 7, blockLevel := 7 }

/-- R74, R86, R90. `reportDue` is the model's own: DESIGN CHOICE log 10. -/
def GroupLock.atReset : GroupLock :=
  { state := .off, engageCount := 0, reportDue := false, cause := Option.none, record := GroupRecord.atReset }

/-- R88, R92, R93. -/
def ActuatorLock.atReset : ActuatorLock :=
  { group := Option.none, floor := 0, level := 7, seed := Option.none, armed := true }

/-- R74, R88. -/
def Interlock.atReset : Interlock :=
  { groups := fill 6 GroupLock.atReset, acts := fill 16 ActuatorLock.atReset }

/-- R96. -/
def StrainChannel.atReset : StrainChannel :=
  { cal := Option.none, limit := Option.none, watch := .normal, debounce := 0, run := Option.none, warnCount := 0
    latest := Option.none, armed := true }

/-- R115. -/
def CrackChannel.atReset : CrackChannel :=
  { record := Option.none, condition := false, sensorFault := false, debounce := 0, accumulator := 0, armed := true }

/-- R126. -/
def CoincidenceSet.atReset : CoincidenceSet := { record := Option.none, armed := true, lastCount := 0 }

/-- R131. -/
def AlarmTable.atReset : AlarmTable := { entries := [], floor := 0, counter := 0 }

/-- R144. -/
def CaptureLog.atReset : CaptureLog :=
  { queue := [], nextSeq := 0, watchList := [], watermark := 32, lost := false }

/-- R151. -/
def MarkerLine.atReset : MarkerLine :=
  { kind := .none, group := 0, width := 1, activeLow := false, timer := Option.none }

/-- Figure 10-1. -/
def WatchSettings.atReset : WatchSettings :=
  { interval := 20, action := .unload, level := 7, enable := false, period := 1000 }

/-- R156. -/
def SweepWatch.atReset : SweepWatch :=
  { settings := WatchSettings.atReset, state := .disarmed, timer := Option.none, lastController := 0
    originating := false, standTimer := Option.none, lastOriginated := 0 }

/-- R163, R167. -/
def ServiceHandler.atReset : ServiceHandler :=
  { page := Option.none, quiet := false, results := [], frameEnded := false, replies := [], replySending := false
    svcDrop := false, restartPending := false }

/-- The part right after reset: every block at the values its Section gives, both lanes in bypass (R9), start-up in
progress (log 4), no command waiting. -/
def State.reset : State :=
  { pending := []
    unit := ResetUnit.atReset
    outLane := Lane.atReset
    retLane := Lane.atReset
    slotMap := []
    shaper := Shaper.atReset
    pages := fill 6 GroupPages.atReset
    shapes := fill 4 (fill 256 0)
    cycles := fill 6 GroupCycles.atReset
    interlock := Interlock.atReset
    strain := fill 256 StrainChannel.atReset
    crack := fill 64 CrackChannel.atReset
    sets := fill 8 CoincidenceSet.atReset
    alarm := AlarmTable.atReset
    captures := CaptureLog.atReset
    markers := fill 4 MarkerLine.atReset
    watch := SweepWatch.atReset
    service := ServiceHandler.atReset }

end Sys2Proof.Machine
end

