-- ==== Sys2Proof/Machine/Ops.lean ====
section
/-! DEFINITION. The shared operations: byte order, rounding, numbering, saturating counts, and the named updates of the state
that every meaning is written over. -/

namespace Sys2Proof.Machine

open Sys2Proof

/-! ### Bytes (R24) -/

/-- R24: a 16-bit field, least significant byte first. -/
def halfOf (b0 b1 : Byte) : Half := b1 ++ b0

/-- R24: a 32-bit field, least significant byte first. -/
def wordOf (b0 b1 b2 b3 : Byte) : Word := b3 ++ b2 ++ b1 ++ b0

/-- R24: the bytes of a 16-bit field, least significant first. -/
def halfBytes (h : Half) : List Byte := [h.extractLsb' 0 8, h.extractLsb' 8 8]

/-- R24: the bytes of a 32-bit field, least significant first. -/
def wordBytes (w : Word) : List Byte :=
  [w.extractLsb' 0 8, w.extractLsb' 8 8, w.extractLsb' 16 8, w.extractLsb' 24 8]

/-- The byte at an offset of a frame; 0 beyond its end, where no check of R2 or R3 lets a frame pass. -/
def byteAt (bytes : List Byte) (i : Nat) : Byte := bytes.getD i 0

/-- The 16-bit field at an offset. -/
def halfAt (bytes : List Byte) (i : Nat) : Half := halfOf (byteAt bytes i) (byteAt bytes (i + 1))

/-! ### Arithmetic (1.4) -/

/-- 1.4: the nearest integer to `n / d`, halves away from zero. -/
def roundDiv (n : Int) (d : Nat) : Int :=
  if 0 ≤ n then (2 * n + d) / (2 * d) else -((2 * -n + d) / (2 * d))

/-- 1.4: a count that stops at its greatest value. -/
def countUp (top n : Nat) : Nat := if n < top then n + 1 else n

/-- `x` brought within `lo` and `hi`: below `lo` it becomes `lo`, otherwise above `hi` it becomes `hi`. -/
def clampInt (lo hi x : Int) : Int := if x < lo then lo else if hi < x then hi else x

/-! ### Numbering (1.4) -/

/-- The place of number `k` among things numbered from 1. -/
def numbered? (n k : Nat) : Option (Fin n) := if h : 1 ≤ k ∧ k ≤ n then some ⟨k - 1, by omega⟩ else none

/-- The place of number `k` among things numbered from 0. -/
def indexed? (n k : Nat) : Option (Fin n) := if h : k < n then some ⟨k, h⟩ else none

/-- The number of a thing numbered from 1. -/
def numberOf {n : Nat} (i : Fin n) : Nat := i.val + 1

/-- A group or actuator number with 0 for none. -/
def numberOrZero {n : Nat} : Option (Fin n) → Nat
  | none => 0
  | some i => numberOf i

/-- G1 to G6. -/
def allGroups : List Group := List.ofFn id
/-- A1 to A16. -/
def allActuators : List Actuator := List.ofFn id

/-! ### Named updates of the state -/

/-- The interlock of a group changed. -/
def State.onLock (s : State) (g : Group) (f : GroupLock → GroupLock) : State :=
  { s with interlock := { s.interlock with groups := s.interlock.groups.alter g f } }

/-- The interlock's part of an actuator changed. -/
def State.onActuator (s : State) (a : Actuator) (f : ActuatorLock → ActuatorLock) : State :=
  { s with interlock := { s.interlock with acts := s.interlock.acts.alter a f } }

/-- What the shaper keeps for a group changed. -/
def State.onShape (s : State) (g : Group) (f : GroupShape → GroupShape) : State :=
  { s with shaper := { s.shaper with groups := s.shaper.groups.alter g f } }

/-- What the shaper keeps for an actuator changed. -/
def State.onOutput (s : State) (a : Actuator) (f : ActuatorOutput → ActuatorOutput) : State :=
  { s with shaper := { s.shaper with acts := s.shaper.acts.alter a f } }

/-- What the shaper keeps for every actuator changed, each by its number. -/
def State.onOutputs (s : State) (f : Actuator → ActuatorOutput → ActuatorOutput) : State :=
  { s with shaper := { s.shaper with acts := s.shaper.acts.alterAll f } }

/-- The pages of a group changed. -/
def State.onPages (s : State) (g : Group) (f : GroupPages → GroupPages) : State :=
  { s with pages := s.pages.alter g f }

/-- The counts and schedule of a group changed. -/
def State.onCycles (s : State) (g : Group) (f : GroupCycles → GroupCycles) : State :=
  { s with cycles := s.cycles.alter g f }

/-- The counts and schedules of all groups changed, each by its number. -/
def State.onAllCycles (s : State) (f : Group → GroupCycles → GroupCycles) : State :=
  { s with cycles := s.cycles.alterAll f }

/-- A strain channel changed. -/
def State.onStrain (s : State) (c : Fin 256) (f : StrainChannel → StrainChannel) : State :=
  { s with strain := s.strain.alter c f }

/-- A crack channel changed. -/
def State.onCrack (s : State) (k : Fin 64) (f : CrackChannel → CrackChannel) : State :=
  { s with crack := s.crack.alter k f }

/-- A coincidence set changed. -/
def State.onSet (s : State) (n : Fin 8) (f : CoincidenceSet → CoincidenceSet) : State :=
  { s with sets := s.sets.alter n f }

/-- A marker line changed. -/
def State.onMarker (s : State) (l : Line) (f : MarkerLine → MarkerLine) : State :=
  { s with markers := s.markers.alter l f }

/-- The service handler changed. -/
def State.onService (s : State) (f : ServiceHandler → ServiceHandler) : State :=
  { s with service := f s.service }

/-- The sweep watch changed. -/
def State.onWatch (s : State) (f : SweepWatch → SweepWatch) : State :=
  { s with watch := f s.watch }

/-- A lane. -/
def State.lane (s : State) : LaneId → Lane
  | .outbound => s.outLane
  | .ret => s.retLane

/-- A lane changed. -/
def State.onLane (s : State) (l : LaneId) (f : Lane → Lane) : State :=
  match l with
  | .outbound => { s with outLane := f s.outLane }
  | .ret => { s with retLane := f s.retLane }

/-! ### Readings of the state that several blocks share -/

/-- The interlock of a group. -/
def State.lock (s : State) (g : Group) : GroupLock := s.interlock.groups.entry g

/-- The interlock state of a group (R74). -/
def State.groupState (s : State) (g : Group) : GroupState := (s.lock g).state

/-- The interlock's part of an actuator. -/
def State.actuator (s : State) (a : Actuator) : ActuatorLock := s.interlock.acts.entry a

/-- What the shaper keeps for an actuator. -/
def State.output (s : State) (a : Actuator) : ActuatorOutput := s.shaper.acts.entry a

/-- What the shaper keeps for a group. -/
def State.shape (s : State) (g : Group) : GroupShape := s.shaper.groups.entry g

/-- The group's lead (R90). -/
def State.lead (s : State) (g : Group) : Option Group := (s.lock g).record.lead

/-- R29: a group's phase source, itself when it names no lead and its lead when it names one. -/
def State.phaseSource (s : State) (g : Group) : Group := (s.lead g).getD g

/-- The groups that name `g` as lead, in ascending group number (R26, R61, R67). -/
def State.linkedTo (s : State) (g : Group) : List Group := allGroups.filter (fun l => s.lead l == some g)

/-- R88: the actuators of a group, those whose records name it. -/
def State.members (s : State) (g : Group) : List Actuator :=
  allActuators.filter (fun a => (s.actuator a).group == some g)

/-- The page of a group by number. -/
def State.page (s : State) (g : Group) (p : Fin 4) : Page := (s.pages.entry g).pages.entry p

/-- The active page of a group (R53). -/
def State.activePage (s : State) (g : Group) : Page := s.page g (s.pages.entry g).active

/-- R54: a page is complete for a group when it holds an entry for each of the group's actuators. -/
def State.complete (s : State) (g : Group) (p : Fin 4) : Bool :=
  (s.members g).all (fun a => ((s.page g p).entries.entry a).isSome)

end Sys2Proof.Machine
end

