-- ==== Sys2Proof/Machine/Operands.lean ====
section
/-! DEFINITION. The operand forms: codes of Figures 2-3, 2-4, 2-10 and 2-11, the argument words of items, and the roles of a
sweep's slots. -/

namespace Sys2Proof.Machine

open Sys2Proof

/-! ### Qualities and slot kinds (Figures 2-3 and 2-10) -/

/-- Figure 2-3: the code of a quality. -/
def Quality.toCode : Quality → Nat
  | .none => 0 | .good => 1 | .held => 2 | .limited => 3 | .saturated => 4 | .uncomp => 5 | .uncal => 6 | .fault => 7

/-- R12: the quality is the number in the low three bits of the quality byte. -/
def qualityOf (b : Byte) : Quality :=
  match b.toNat % 8 with
  | 0 => .none | 1 => .good | 2 => .held | 3 => .limited | 4 => .saturated | 5 => .uncomp | 6 => .uncal | _ => .fault

/-- Figure 2-10. -/
def kindSetpoint : Byte := 1
/-- Figure 2-10. -/
def kindFeedback : Byte := 2
/-- Figure 2-10. -/
def kindStrainRaw : Byte := 3
/-- Figure 2-10. -/
def kindStrainUe : Byte := 4
/-- Figure 2-10. -/
def kindCrackWire : Byte := 5
/-- Figure 2-10. -/
def kindCrackAe : Byte := 6
/-- Figure 2-10. -/
def kindStatus : Byte := 7

/-- R12: a slot rewritten with kind, quality (its upper five bits 0) and value; the slot number stays. -/
def Slot.rewrite (sl : Slot) (kind : Byte) (q : Quality) (value : Word) : Slot :=
  { sl with kind := kind, quality := BitVec.ofNat 8 q.toCode, value := value }

/-! ### Roles (Figure 2-4) -/

/-- Figure 2-4: the role code of a role, high byte then low byte. -/
def Role.code : Role → Nat
  | .setpoint a => 256 * 1 + numberOf a
  | .feedback a => 256 * 2 + numberOf a
  | .strain c => 256 * 3 + c.val
  | .crack k => 256 * 4 + k.val
  | .statusGroups => 256 * 5
  | .statusFlags => 256 * 6
  | .notice => 256 * 7
  | .noticeSeq => 256 * 8

/-- What a role code asks of a MAP command. -/
inductive RoleCode where
  | unbind
  | bind (r : Role)
deriving DecidableEq, Repr

/-- R15, first check: the upper half of the word is 0, the high byte is 0 to 8, and the low byte lies in the range that
Figure 2-4 gives for it. -/
def roleCode? (w : Word) : Option RoleCode :=
  let n := w.toNat
  if 65536 ≤ n then none
  else
    let low := n % 256
    match n / 256 with
    | 0 => if low = 0 then some .unbind else none
    | 1 => (numbered? 16 low).map (fun a => .bind (.setpoint a))
    | 2 => (numbered? 16 low).map (fun a => .bind (.feedback a))
    | 3 => (indexed? 256 low).map (fun c => .bind (.strain c))
    | 4 => (indexed? 64 low).map (fun k => .bind (.crack k))
    | 5 => if low = 0 then some (.bind .statusGroups) else none
    | 6 => if low = 0 then some (.bind .statusFlags) else none
    | 7 => if low = 0 then some (.bind .notice) else none
    | 8 => if low = 0 then some (.bind .noticeSeq) else none
    | _ => none

/-- The actuator of a SETPOINT or FEEDBACK role (R15, second check). -/
def Role.actuator? : Role → Option Actuator
  | .setpoint a => some a
  | .feedback a => some a
  | _ => none

/-- Figure 2-4: the slot kinds that match a role. A CRACK role is judged against its channel's record (R14). -/
def Role.kindMatches (crack : Vector CrackChannel 64) (r : Role) (kind : Byte) : Bool :=
  match r with
  | .setpoint _ => kind == kindSetpoint
  | .feedback _ => kind == kindFeedback
  | .strain _ => kind == kindStrainRaw
  | .crack k =>
    match (crack.entry k).record with
    | none => kind == kindCrackWire || kind == kindCrackAe
    | some rec => match rec.kind with
      | .wire => kind == kindCrackWire
      | .ae => kind == kindCrackAe
  | .statusGroups | .statusFlags | .notice | .noticeSeq => kind == kindStatus

/-- The slot number a role is bound to, if any (R13). -/
def slotOf? (map : List Binding) (r : Role) : Option Half := (map.find? (fun b => b.role == r)).map (·.slot)

/-- The role a slot number carries, if any (R13). -/
def roleAt? (map : List Binding) (n : Half) : Option Role := (map.find? (fun b => b.slot == n)).map (·.role)

/-- R12, R14: the place of the first slot with the bound slot number, if the role is present. -/
def present? (crack : Vector CrackChannel 64) (map : List Binding) (slots : List Slot) (r : Role) : Option (Nat × Slot) :=
  match slotOf? map r with
  | none => none
  | some n =>
    match slots.findIdx? (fun sl => sl.number == n) with
    | none => none
    | some i =>
      match slots[i]? with
      | none => none
      | some sl => if r.kindMatches crack sl.kind then some (i, sl) else none

/-- The slot at a place replaced. -/
def putSlot (slots : List Slot) (i : Nat) (sl : Slot) : List Slot := slots.set i sl

/-! ### Codes of Figure 2-11 -/

/-- Figure 2-11: the code of a group state. -/
def GroupState.toCode : GroupState → Nat
  | .off => 0 | .engaging => 1 | .run => 2 | .hold => 3 | .unload => 4 | .rest => 5

/-- Figure 2-11: the code of an action. -/
def Action.toCode : Action → Nat
  | .note => 0 | .hold => 1 | .unload => 2

/-- Figure 2-11: the action of a code. -/
def action? : Nat → Option Action
  | 0 => some .note | 1 => some .hold | 2 => some .unload | _ => none

/-- Figure 2-11: the code of a result. -/
def ResultCode.toCode : ResultCode → Nat
  | .ok => 0 | .unknown => 1 | .badIndex => 2 | .badValue => 3 | .state => 4 | .bound => 5 | .chain => 6 | .pageActive => 7
  | .pagePending => 8 | .commitBusy => 9 | .shapeInUse => 10 | .incomplete => 11 | .latched => 12 | .noFeedback => 13
  | .notPending => 14 | .noPage => 15 | .orphan => 16 | .empty => 17

/-- R95: the code of a hold cause. -/
def CauseKind.toCode : CauseKind → Nat
  | .command => 1 | .alarm => 2 | .timeout => 3 | .inspect => 4 | .incomplete => 5 | .sum => 6 | .drive => 7

/-- R64: the end action of a code. -/
def endAction? : Nat → Option EndAction
  | 0 => some .cont | 1 => some .inspect | 2 => some .unload | _ => none

/-- R64: the code of an end action. -/
def EndAction.toCode : EndAction → Nat
  | .cont => 0 | .inspect => 1 | .unload => 2

/-- R57: the mode of a code. -/
def mode? : Nat → Option Mode
  | 0 => some .direct | 1 => some .cyclic | _ => none

/-- R57: the code of a mode. -/
def Mode.toCode : Mode → Nat
  | .direct => 0 | .cyclic => 1

/-- Figure 7-2: the kind of a code. -/
def crackKind? : Nat → Option CrackKind
  | 0 => some .wire | 1 => some .ae | _ => none

/-- Figure 7-2: the code of a kind. -/
def CrackKind.toCode : CrackKind → Nat
  | .wire => 0 | .ae => 1

/-- R114: the code of a watch state or band. -/
def Band.toCode : Band → Nat
  | .normal => 0 | .warn => 1 | .stop => 2

/-- Figure 9-2: the kind of a code. -/
def markerKind? : Nat → Option MarkerKind
  | 0 => some .none | 1 => some .valley | 2 => some .peak | 3 => some .block | 4 => some .capture | 5 => some .held
  | 6 => some .notice | _ => none

/-- Figure 9-2: the code of a kind. -/
def MarkerKind.toCode : MarkerKind → Nat
  | .none => 0 | .valley => 1 | .peak => 2 | .block => 3 | .capture => 4 | .held => 5 | .notice => 6

/-- Figure 9-2: the kinds that name a group. -/
def MarkerKind.namesGroup : MarkerKind → Bool
  | .valley | .peak | .block | .held => true
  | .none | .capture | .notice => false

/-- Figure 9-2: the pulse kinds. -/
def MarkerKind.isPulse : MarkerKind → Bool
  | .valley | .peak | .block | .capture => true
  | .none | .held | .notice => false

/-- R162: the code of a watch state. -/
def WatchState.toCode : WatchState → Nat
  | .disarmed => 0 | .running => 1 | .expired => 2

/-! ### Sources (Figure 8-1) -/

/-- Figure 8-1: the source number. -/
def Source.number : Source → Nat
  | .timeout => 0
  | .groupSum g => numberOf g
  | .drive a => 6 + numberOf a
  | .blockStop g => 22 + numberOf g
  | .coincidence n => 31 + numberOf n
  | .crack k => 64 + k.val
  | .strain c => 128 + c.val

/-- Figure 8-1: the source of a number; the unused numbers, and those above 383, have none. -/
def source? (n : Nat) : Option Source :=
  if n = 0 then some .timeout
  else if n ≤ 6 then (numbered? 6 n).map .groupSum
  else if n ≤ 22 then (numbered? 16 (n - 6)).map .drive
  else if n ≤ 28 then (numbered? 6 (n - 22)).map .blockStop
  else if n ≤ 31 then none
  else if n ≤ 39 then (numbered? 8 (n - 31)).map .coincidence
  else if n ≤ 63 then none
  else if n ≤ 127 then (indexed? 64 (n - 64)).map .crack
  else (indexed? 256 (n - 128)).map .strain

/-! ### Argument words and returned words -/

/-- A flag carried as 0 or 1. -/
def flag? : Nat → Option Bool
  | 0 => some false | 1 => some true | _ => none

/-- A group mask of six bits, G1 in bit 0. -/
def mask? (n : Nat) : Option (BitVec 6) := if n ≤ 63 then some (BitVec.ofNat 6 n) else none

/-- The group mask of a list of groups. -/
def maskOf (gs : List Group) : BitVec 6 := gs.foldl (fun m g => m ||| BitVec.twoPow 6 g.val) 0

/-- A number returned as a word. -/
def natWord (n : Nat) : Word := BitVec.ofNat 32 n

/-- A signed number returned as a word. -/
def intWord (x : Int) : Word := BitVec.ofInt 32 x

/-- A flag returned as a word. -/
def boolWord (b : Bool) : Word := if b then 1 else 0

end Sys2Proof.Machine
end

