-- ==== Sys2Proof/Machine/Flags.lean ====
section
/-! DEFINITION. The flags and status words: what the status writer, the READ views and the marker pins show of the state. -/

namespace Sys2Proof.Machine

open Sys2Proof

/-! ### Presentation (R137) -/

/-- R137: descending level, and within a level ascending source number. -/
def Entry.outranks (e f : Entry) : Bool :=
  decide (f.level < e.level) || (e.level == f.level && decide (e.source.number < f.source.number))

/-- An entry put into its place by rank. -/
def insertEntry (e : Entry) : List Entry → List Entry
  | [] => [e]
  | f :: rest => if e.outranks f then e :: f :: rest else f :: insertEntry e rest

/-- R137: the presentation order of all entries, the floor ignored. -/
def AlarmTable.order (t : AlarmTable) : List Entry := t.entries.foldr insertEntry []

/-- R137: the presented notice. -/
def AlarmTable.presented (t : AlarmTable) : Option Entry := t.order.find? (fun e => decide (t.floor < e.level))

/-- R131: the entry of a source, if it has one. -/
def AlarmTable.entry? (t : AlarmTable) (src : Source) : Option Entry := t.entries.find? (fun e => e.source == src)

/-- R75, R76: a group is latched while an entry with action HOLD or UNLOAD names it. -/
def AlarmTable.latches (t : AlarmTable) (g : Group) : Bool :=
  t.entries.any (fun e => e.action != .note && e.mask.getLsbD g.val)

/-! ### Status words (R21 to R23, Figure 2-9) -/

/-- R149: CAPWM is 1 while the count of records is at or above the watermark. -/
def CaptureLog.capwm (c : CaptureLog) : Bool := decide (c.watermark ≤ c.queue.length)

/-- A bit of a status word. -/
def bitAt (b : Bool) (i : Nat) : Nat := if b then 2 ^ i else 0

/-- R21: STATUS_GROUPS. -/
def State.statusGroups (s : State) : Word :=
  natWord (allGroups.foldl (fun n g =>
    n + (s.groupState g).toCode * 2 ^ (4 * g.val) + bitAt (s.pages.entry g).pendingPage.isSome (24 + g.val)) 0)

/-- R22: STATUS_FLAGS. -/
def State.statusFlags (s : State) : Word :=
  natWord (s.captures.queue.length + bitAt s.captures.lost 6 + bitAt s.captures.capwm 7 + bitAt s.watch.originating 8
    + bitAt s.service.svcDrop 9 + allGroups.foldl (fun n g => n + bitAt (s.pages.entry g).overridden (10 + g.val)) 0)

/-- R23: the presented source number, 511 for none. -/
def AlarmTable.presentedNumber (t : AlarmTable) : Nat :=
  match t.presented with
  | none => 511
  | some e => e.source.number

/-- R23: NOTICE. -/
def State.noticeWord (s : State) : Word :=
  let count := s.alarm.entries.length
  match s.alarm.presented with
  | none => natWord (511 + count * 2 ^ 16)
  | some e => natWord (e.source.number + e.level * 2 ^ 9 + e.action.toCode * 2 ^ 12 + count * 2 ^ 16)

/-- R23: NOTICE_SEQ. -/
def State.noticeSeqWord (s : State) : Word :=
  match s.alarm.presented with
  | none => 0
  | some e => natWord (e.seq.toNat + e.sweep.toNat * 2 ^ 16)

/-! ### Marker lines (R151, R153, R154) -/

/-- R154: the condition of a HELD line. -/
def GroupState.isHeld : GroupState → Bool
  | .engaging | .hold | .unload | .rest => true
  | .off | .run => false

/-- R151, R153, R154: whether a marker line is active. A pulse-kind line is active exactly while its timer runs. -/
def State.lineActive (s : State) (l : Line) : Bool :=
  let m := s.markers.entry l
  match m.kind with
  | .none => false
  | .valley | .peak | .block | .capture => m.timer.isSome
  | .held =>
    match numbered? 6 m.group with
    | none => false
    | some g => (s.groupState g).isHeld
  | .notice => s.alarm.presented.isSome

/-- R151: whether a marker line drives its pin high. -/
def State.pinHigh (s : State) (l : Line) : Bool := s.lineActive l != (s.markers.entry l).activeLow

end Sys2Proof.Machine
end

