-- ==== Sys2Proof/Machine/Alarm.lean ====
section
/-! DEFINITION. Taking a raise: the alarm table's entry, the interlock's action, the capture log's record and the marker
lines (R82, R86, R87, R132 to R134, R145 to R147, R153). -/

namespace Sys2Proof.Machine

open Sys2Proof

/-! ### Marker pulses -/

/-- R153: each marker line that the event names becomes active, its pulse timer started with its width. -/
def State.tellMarkers (s : State) (named : MarkerLine → Bool) : State :=
  { s with markers := s.markers.alterAll (fun _ m => if named m then { m with timer := some m.width } else m) }

/-- R153: a line of a kind that names the group. -/
def MarkerLine.names (m : MarkerLine) (kind : MarkerKind) (g : Group) : Bool :=
  m.kind == kind && m.group == numberOf g

/-! ### Captures -/

/-- R145: the record as the state stands. -/
def State.captureRecord (s : State) (trigger : Trigger) (sweep : Half) : CaptureRecord :=
  { seq := s.captures.nextSeq
    trigger := trigger
    sweep := sweep
    states := s.interlock.groups.alterAll (fun _ l => l.state)
    totals := s.cycles.alterAll (fun _ c => c.total)
    pointers := s.cycles.alterAll (fun _ c => c.pointer)
    outputs := allActuators.filterMap (fun a => (s.output a).kept.map (fun x => (a, x)))
    strains := s.captures.watchList.filterMap (fun c => (s.strain.entry c).latest.map (fun v => (c, v.1, v.2))) }

/-- R147: whether the log has room. -/
def State.captureFits (s : State) : Bool := decide (s.captures.queue.length < Config.captureRoom)

/-- R147: a capture asked for is stored at the tail and told to the CAPTURE lines, or lost. -/
def State.capture (s : State) (trigger : Trigger) (sweep : Half) : State :=
  if s.captureFits then
    State.tellMarkers
      { s with captures := { s.captures with
          queue := s.captures.queue ++ [s.captureRecord trigger sweep]
          nextSeq := s.captures.nextSeq + 1 } }
      (fun m => m.kind == .capture)
  else { s with captures := { s.captures with lost := true } }

/-! ### Group states -/

/-- R25: on entry to OFF the kept outputs and hold values of the group's actuators are discarded, and the state last shaped
becomes OFF. -/
def State.discardOutputs (s : State) (g : Group) : State :=
  (s.onOutputs (fun a o =>
      if (s.actuator a).group == some g then { o with kept := none, hold := none } else o)).onShape g
    (fun x => { x with lastShaped := some .off })

/-- R74: a change of a group's state. The engage count becomes 0 whenever the group leaves ENGAGING and when it enters OFF or
ENGAGING, and it is 0 in every other state; an outstanding engage report is then ignored (R84). -/
def State.moveGroup (s : State) (g : Group) (st : GroupState) : State :=
  let moved := s.onLock g (fun l => { l with state := st, engageCount := 0, reportDue := false })
  if st = .off then moved.discardOutputs g else moved

/-- R86: a hold cause record written whole. -/
def State.writeCause (s : State) (g : Group) (c : HoldCause) : State :=
  s.onLock g (fun l => { l with cause := some c })

/-- R86: a hold cause record written by a command. -/
def State.commandCause (s : State) : HoldCause :=
  { cause := .command, source := none, sweep := s.shaper.lastTaken }

/-- R82: where an action takes a group; none where it leaves the state as it stands. -/
def GroupState.under (act : Action) (st : GroupState) : Option GroupState :=
  match act, st with
  | .hold, .engaging => some .hold
  | .hold, .run => some .hold
  | .unload, .engaging => some .unload
  | .unload, .run => some .unload
  | .unload, .hold => some .unload
  | _, _ => none

/-! ### Raises -/

/-- R87: the hold cause a raise writes. -/
def Raise.cause (r : Raise) : HoldCause :=
  { cause := match r.source with
      | .timeout => .timeout
      | .groupSum _ => .sum
      | .drive _ => .drive
      | .blockStop _ => r.handed
      | .coincidence _ | .crack _ | .strain _ => .alarm
    source := some r.source
    sweep := r.sweep }

/-- R133, step 3: sources 0 to 28 always ask for a capture, the others when the flag carried is 1. -/
def Raise.asksCapture (r : Raise) : Bool :=
  match r.source with
  | .coincidence _ | .crack _ | .strain _ => r.capture
  | .timeout | .groupSum _ | .drive _ | .blockStop _ => true

/-- R133, step 1: the entry a raise makes. -/
def State.newEntry (s : State) (r : Raise) : Entry :=
  { source := r.source, level := r.level, action := r.action, mask := r.mask, seq := s.alarm.counter, sweep := r.sweep }

/-- R82: an action taken on one group of the mask, with its hold cause record. -/
def State.actOn (s : State) (r : Raise) (g : Group) : State :=
  if r.mask.getLsbD g.val then
    match (s.groupState g).under r.action with
    | none => s
    | some st => (s.moveGroup g st).writeCause g r.cause
  else s

/-- R82: an action taken on each group of its mask in ascending group number. -/
def State.takeAction (s : State) (r : Raise) : State := allGroups.foldl (fun s g => s.actOn r g) s

/-- R133, step 1: the entry made. -/
def State.makeEntry (s : State) (r : Raise) : State :=
  { s with alarm := { s.alarm with
      entries := insertEntry (s.newEntry r) s.alarm.entries
      counter := s.alarm.counter + 1 } }

/-- R133, R134: a raise taken whole by the alarm table. -/
def State.raised (s : State) (r : Raise) : State :=
  if (s.alarm.entry? r.source).isSome then s
  else
    let acted := (s.makeEntry r).takeAction r
    if r.asksCapture then acted.capture (.raised r.source s.alarm.counter) r.sweep else acted

/-- R132: raises taken one at a time, each whole before the next. -/
def State.raisedAll (s : State) (rs : List Raise) : State := rs.foldl State.raised s

end Sys2Proof.Machine
end

