-- ==== Sys2Proof/Machine/Strain.lean ====
section
/-! DEFINITION. The strain conditioner and limit watch (R96 to R113). -/

namespace Sys2Proof.Machine

open Sys2Proof

/-! ### Conditioning (R99 to R103) -/

/-- R100: the first step of conditioning. -/
def conditionRaw (cal : Calibration) (r : Int) : Int := roundDiv ((r - cal.zero) * cal.gain) 65536

/-- R102: the last step of conditioning. -/
def saturate (e : Int) (q : Quality) : Int × Quality :=
  if Config.strainMax < e then (Config.strainMax, .saturated)
  else if e < -Config.strainMax then (-Config.strainMax, .saturated)
  else (e, q)

/-- A return sweep as a block finds it: the map it is processed against (R19) and its slots. -/
structure Reading where
  map : List Binding
  slots : List Slot

/-- The slot of a role, if the role is present (R14). -/
def Reading.slot? (rd : Reading) (crack : Vector CrackChannel 64) (r : Role) : Option (Nat × Slot) :=
  present? crack rd.map rd.slots r

/-- R99: the raw value of a channel whose role is present with quality GOOD. -/
def Reading.raw? (rd : Reading) (s : State) (c : Fin 256) : Option Int :=
  match rd.slot? s.crack (.strain c) with
  | none => none
  | some (_, sl) => if qualityOf sl.quality = .good then some sl.value.toInt else none

/-- R100, R102: the result of a channel of the first pass: its record names no compensation channel. -/
def Reading.firstPass (rd : Reading) (s : State) (c : Fin 256) : Option (Int × Quality) :=
  match (s.strain.entry c).cal, rd.raw? s c with
  | some cal, some r => if cal.comp.isNone then some (saturate (conditionRaw cal r) .good) else none
  | _, _ => none

/-- R101: the compensation of a channel, available when the channel named has a result of quality GOOD in this sweep. -/
def Reading.compensation (rd : Reading) (s : State) (c : Fin 256) : Option Int :=
  match rd.firstPass s c with
  | some (e, .good) => some e
  | _ => none

/-- R99 to R102: the conditioned value and quality of a channel, if it is conditioned in this sweep. -/
def Reading.conditioned (rd : Reading) (s : State) (c : Fin 256) : Option (Int × Quality) :=
  match (s.strain.entry c).cal, rd.raw? s c with
  | some cal, some r =>
    let e := conditionRaw cal r
    match cal.comp with
    | none => some (saturate e .good)
    | some d =>
      match rd.compensation s d with
      | some ec => some (saturate (e - ec) .good)
      | none => some (saturate e .uncomp)
  | _, _ => none

/-- R99, R103: the slot of a channel as the conditioner leaves it, with its place. -/
def Reading.strainSlot? (rd : Reading) (s : State) (c : Fin 256) : Option (Nat × Slot) :=
  match rd.slot? s.crack (.strain c) with
  | none => none
  | some (i, sl) =>
    if qualityOf sl.quality = .good then
      match rd.conditioned s c with
      | some (e, q) => some (i, sl.rewrite kindStrainUe q (intWord e))
      | none => some (i, sl.rewrite kindStrainRaw .uncal sl.value)
    else none

/-- The strain channels 0 to 255. -/
def allStrain : List (Fin 256) := List.ofFn id

/-- R99, R103: the sweep's slots as the conditioner leaves them. -/
def Reading.conditionedSlots (rd : Reading) (s : State) : List Slot :=
  (allStrain.filterMap (rd.strainSlot? s)).foldl (fun slots w => putSlot slots w.1 w.2) rd.slots

/-! ### The watch (R106 to R112) -/

/-- R107: the plain band of a value. -/
def LimitRecord.plainBand (l : LimitRecord) (e : Int) : Band :=
  if e < l.stopLow ∨ l.stopHigh < e then .stop
  else if e < l.warnLow ∨ l.warnHigh < e then .warn
  else .normal

/-- R107: the release band of a value. -/
def LimitRecord.releaseBand (l : LimitRecord) (e : Int) : Band :=
  if l.warnLow + l.hysteresis ≤ e ∧ e ≤ l.warnHigh - l.hysteresis then .normal
  else if l.stopLow + l.hysteresis ≤ e ∧ e ≤ l.stopHigh - l.hysteresis then .warn
  else .stop

/-- R107: bands ranked from mildest to most severe. -/
def Band.milder (a b : Band) : Bool := decide (a.toCode < b.toCode)

/-- The milder of two bands (R108). -/
def Band.mildest (a b : Band) : Band := if a.milder b then a else b

/-- The more severe of two bands (R109). -/
def Band.severest (a b : Band) : Band := if a.milder b then b else a

/-- R106, R107: a sweep that breaks a run. -/
def StrainChannel.breakRun (ch : StrainChannel) : StrainChannel := { ch with debounce := 0, run := none }

/-- R108 to R110, R112: the watch state moves to a band. -/
def StrainChannel.moveTo (ch : StrainChannel) (b : Band) : StrainChannel :=
  { ch.breakRun with
    watch := b
    warnCount := if ch.watch = .normal ∧ b = .warn then countUp Config.warnMax ch.warnCount else ch.warnCount
    armed := if ch.watch = .stop ∧ b ≠ .stop then true else ch.armed }

/-- R108, R109: the band of a run after a further sweep in its direction. -/
def runBand (dir : Direction) (old : Option (Direction × Band)) (b : Band) : Band :=
  match dir, old with
  | .moreSevere, some (.moreSevere, r) => r.mildest b
  | .lessSevere, some (.lessSevere, r) => r.severest b
  | _, _ => b

/-- R108, R109: the count of a run after a further sweep in its direction. -/
def runCount (dir : Direction) (old : Option (Direction × Band)) (count : Nat) : Nat :=
  match old with
  | none => 1
  | some (d, _) => if d = dir then count + 1 else 1

/-- R108, R109: a sweep in a direction with its band continues or starts a run, which moves the watch state when its count
reaches the debounce. -/
def StrainChannel.runOn (ch : StrainChannel) (debounce : Nat) (dir : Direction) (b : Band) : StrainChannel :=
  let band := runBand dir ch.run b
  let count := runCount dir ch.run ch.debounce
  if debounce ≤ count then ch.moveTo band else { ch with debounce := count, run := some (dir, band) }

/-- R107: a judged sweep, by its direction. -/
def StrainChannel.judgeValue (ch : StrainChannel) (l : LimitRecord) (e : Int) : StrainChannel :=
  if ch.watch.milder (l.plainBand e) then ch.runOn l.debounce .moreSevere (l.plainBand e)
  else if (l.releaseBand e).milder ch.watch then ch.runOn l.debounce .lessSevere (l.releaseBand e)
  else ch.breakRun

/-- R111: whether a channel whose watch state was `old` is raised by its move. -/
def StrainChannel.raises (ch : StrainChannel) (old : Band) (l : LimitRecord) : Bool :=
  old != .stop && ch.watch == .stop && decide (1 ≤ l.level) && ch.armed

/-- R103, R106, R111: a channel after the sweep, with whether it raises. -/
def StrainChannel.afterSweep (ch : StrainChannel) (v : Option (Int × Quality)) : StrainChannel × Bool :=
  let held := match v with
    | none => ch
    | some _ => { ch with latest := v }
  match ch.limit, v with
  | some l, some (e, _) =>
    let judged := held.judgeValue l e
    if judged.raises ch.watch l then ({ judged with armed := false }, true) else (judged, false)
  | _, _ => (held.breakRun, false)

/-- R111: the raise of a strain channel. -/
def strainRaise (c : Fin 256) (l : LimitRecord) (number : Half) : Raise :=
  { source := .strain c, level := l.level, action := l.action, mask := l.mask, sweep := number, capture := l.capture
    handed := .alarm }

/-- R111: the raises of the strain block in one sweep, in ascending channel number. -/
def Reading.strainRaises (rd : Reading) (s : State) (number : Half) : List Raise :=
  allStrain.filterMap (fun c =>
    let ch := s.strain.entry c
    match ch.limit with
    | none => none
    | some l => if (ch.afterSweep (rd.conditioned s c)).2 then some (strainRaise c l number) else none)

/-- R103, R106: the strain channels as a sweep leaves them. -/
def State.strainJudged (s : State) (rd : Reading) : State :=
  { s with strain := s.strain.alterAll (fun c ch => (ch.afterSweep (rd.conditioned s c)).1) }

/-- R98, R106, R111: the strain block's work on a return sweep. The watch states of all channels are worked out and then the
raises are handed over in ascending channel number: nothing a raise does reads or changes a watch state (log 17). -/
def State.strainBlock (s : State) (map : List Binding) (sw : Sweep) : State × Sweep :=
  let rd : Reading := { map := map, slots := sw.slots }
  ((s.strainJudged rd).raisedAll (rd.strainRaises s sw.number), { sw with slots := rd.conditionedSlots s })

end Sys2Proof.Machine
end

