-- ==== Sys2Proof/Machine/Crack.lean ====
section
/-! DEFINITION. The crack watch and the coincidence sets (R115 to R129). -/

namespace Sys2Proof.Machine

open Sys2Proof

/-! ### Wire-loop channels (R119 to R121) -/

/-- R119: the readings of a WIRE channel. -/
inductive WireReading where
  | none | intact | broken | openCircuit
deriving DecidableEq, Repr

/-- R119: the reading of a slot. -/
def wireReadingOf (slot : Option (Nat × Slot)) : WireReading :=
  match slot with
  | Option.none => .none
  | some (_, sl) =>
    match qualityOf sl.quality with
    | .good => if sl.value = 0 then .intact else if sl.value = 1 then .broken else .openCircuit
    | .fault => .openCircuit
    | .none | .held | .limited | .saturated | .uncomp | .uncal => .none

/-- A crack channel after a sweep, with the action of the raise it makes, if it makes one. -/
structure CrackStep where
  channel : CrackChannel
  raise : Option Action
deriving DecidableEq, Repr

/-- R124: a channel whose condition has become true is raised if its level is 1 or more and its source is armed. -/
def CrackChannel.becomeTrue (ch : CrackChannel) (rec : CrackRecord) : CrackStep :=
  let set := { ch with condition := true, debounce := 0 }
  if 1 ≤ rec.level ∧ ch.armed then { channel := { set with armed := false }, raise := some rec.action }
  else { channel := set, raise := Option.none }

/-- R120, R125: a channel whose condition has become false is re-armed. -/
def CrackChannel.becomeFalse (ch : CrackChannel) : CrackStep :=
  { channel := { ch with condition := false, debounce := 0, armed := true }, raise := Option.none }

/-- R120: a reading of intact or broken taken against the condition. -/
def CrackChannel.takeReading (ch : CrackChannel) (rec : CrackRecord) (broken : Bool) : CrackStep :=
  if broken = ch.condition then { channel := { ch with debounce := 0 }, raise := Option.none }
  else if rec.debounce ≤ ch.debounce + 1 then
    if broken then ch.becomeTrue rec else ch.becomeFalse
  else { channel := { ch with debounce := ch.debounce + 1 }, raise := Option.none }

/-- R121: a reading of intact or broken takes the channel out of SENSOR_FAULT, re-armed if its condition is false. -/
def CrackChannel.leaveFault (ch : CrackChannel) : CrackChannel :=
  if ch.sensorFault then { ch with sensorFault := false, armed := ch.armed || !ch.condition } else ch

/-- R121: a reading of open-circuit. -/
def CrackChannel.openCircuit (ch : CrackChannel) (rec : CrackRecord) : CrackStep :=
  let quiet := { ch with sensorFault := true, debounce := 0 }
  if !ch.sensorFault && decide (1 ≤ rec.level) && ch.armed then
    { channel := { quiet with armed := false }, raise := some .note }
  else { channel := quiet, raise := Option.none }

/-- R119 to R121: a WIRE channel after a sweep. -/
def CrackChannel.wireStep (ch : CrackChannel) (rec : CrackRecord) (rd : WireReading) : CrackStep :=
  match rd with
  | .none => { channel := { ch with debounce := 0 }, raise := Option.none }
  | .intact => ch.leaveFault.takeReading rec false
  | .broken => ch.leaveFault.takeReading rec true
  | .openCircuit => ch.openCircuit rec

/-! ### Acoustic-emission channels (R122, R123) -/

/-- R122: the hit count of a slot. -/
def hitsOf (slot : Option (Nat × Slot)) : Nat :=
  match slot with
  | Option.none => 0
  | some (_, sl) => if qualityOf sl.quality = .good then min Config.hitMax sl.value.toInt.toNat else 0

/-- R123: the accumulator after a sweep. -/
def accumulate (a decay hits : Nat) : Nat := min Config.accumulatorMax (a - a / 2 ^ decay + hits)

/-- R123: an AE channel after a sweep. -/
def CrackChannel.aeStep (ch : CrackChannel) (rec : CrackRecord) (hits : Nat) : CrackStep :=
  let fed := { ch with accumulator := accumulate ch.accumulator rec.decay hits }
  if !ch.condition && decide (rec.threshold ≤ fed.accumulator) then
    if 1 ≤ rec.level ∧ ch.armed then
      { channel := { fed with condition := true, armed := false }, raise := some rec.action }
    else { channel := { fed with condition := true }, raise := Option.none }
  else if ch.condition && decide (fed.accumulator < rec.threshold / 2) then
    { channel := { fed with condition := false, armed := true }, raise := Option.none }
  else { channel := fed, raise := Option.none }

/-! ### The evaluation of a sweep (R118, R128, R129) -/

/-- R115, R119, R122: a channel after a sweep; a channel with no record is not evaluated. -/
def CrackChannel.afterSweep (ch : CrackChannel) (slot : Option (Nat × Slot)) : CrackStep :=
  match ch.record with
  | Option.none => { channel := ch, raise := Option.none }
  | some rec =>
    match rec.kind with
    | .wire => ch.wireStep rec (wireReadingOf slot)
    | .ae => ch.aeStep rec (hitsOf slot)

/-- The crack channels 0 to 63. -/
def allCracks : List (Fin 64) := List.ofFn id

/-- The coincidence sets 1 to 8. -/
def allSets : List (Fin 8) := List.ofFn id

/-- R124: the raise of a crack channel, with the action of the record or NOTE for a sensor fault (R121). -/
def crackRaise (k : Fin 64) (rec : CrackRecord) (act : Action) (number : Half) : Raise :=
  { source := .crack k, level := rec.level, action := act, mask := rec.mask, sweep := number, capture := rec.capture
    handed := .alarm }

/-- R128: the count of a set, its members whose condition is true. -/
def CoincidenceRecord.count (rec : CoincidenceRecord) (crack : Vector CrackChannel 64) : Nat :=
  (rec.members.filter (fun k => (crack.entry k).condition)).length

/-- R128: whether a set is raised. -/
def CoincidenceSet.raises (st : CoincidenceSet) (crack : Vector CrackChannel 64) : Bool :=
  match st.record with
  | Option.none => false
  | some rec => decide (rec.minimum ≤ rec.count crack) && st.armed && decide (1 ≤ rec.level)

/-- R128: a set after a sweep. -/
def CoincidenceSet.afterSweep (st : CoincidenceSet) (crack : Vector CrackChannel 64) : CoincidenceSet :=
  match st.record with
  | Option.none => st
  | some rec =>
    { st with
      lastCount := rec.count crack
      armed := if st.raises crack then false else if rec.count crack < rec.minimum then true else st.armed }

/-- R128: the raise of a coincidence set. -/
def setRaise (n : Fin 8) (rec : CoincidenceRecord) (number : Half) : Raise :=
  { source := .coincidence n, level := rec.level, action := rec.action, mask := rec.mask, sweep := number
    capture := rec.capture, handed := .alarm }

/-- R119, R122: the step of each channel, by the records as they stand and the map of the sweep's arrival. -/
def Reading.crackStep (rd : Reading) (s : State) (k : Fin 64) : CrackStep :=
  (s.crack.entry k).afterSweep (rd.slot? s.crack (.crack k))

/-- The crack channels after a sweep. -/
def Reading.cracked (rd : Reading) (s : State) : Vector CrackChannel 64 :=
  s.crack.alterAll (fun k _ => (rd.crackStep s k).channel)

/-- R128, R129: the raises of the sets, in ascending set number. -/
def Reading.setRaises (rd : Reading) (s : State) (number : Half) : List Raise :=
  allSets.filterMap (fun n =>
    match (s.sets.entry n).record with
    | Option.none => Option.none
    | some rec => if (s.sets.entry n).raises (rd.cracked s) then some (setRaise n rec number) else Option.none)

/-- R124, R129: the raises of the channels, in ascending channel number. -/
def Reading.crackRaises (rd : Reading) (s : State) (number : Half) : List Raise :=
  allCracks.filterMap (fun k =>
    match (s.crack.entry k).record, (rd.crackStep s k).raise with
    | some rec, some act => some (crackRaise k rec act number)
    | _, _ => Option.none)

/-- R118: the crack channels, and then the sets, as a sweep leaves them. -/
def State.crackEvaluated (s : State) (rd : Reading) : State :=
  { s with
    crack := rd.cracked s
    sets := s.sets.alterAll (fun _ st => st.afterSweep (rd.cracked s)) }

/-- R129: the raises of the crack watch in ascending source number, the sets' before the channels'. -/
def Reading.watchRaises (rd : Reading) (s : State) (number : Half) : List Raise :=
  rd.setRaises s number ++ rd.crackRaises s number

/-- R118, R129: the crack watch's work on a return sweep: the channels, then the sets, then the raises. It rewrites no slot.
-/
def State.crackWatch (s : State) (map : List Binding) (sw : Sweep) : State :=
  let rd : Reading := { map := map, slots := sw.slots }
  (s.crackEvaluated rd).raisedAll (rd.watchRaises s sw.number)

end Sys2Proof.Machine
end

