-- ==== Sys2Proof/Machine/Frames.lean ====
section
/-! DEFINITION. Frames: the CRC, the checks of an arriving frame, and the layouts of sweeps, service frames and replies (R2, R3,
R8, R24, Figures 2-7 and 2-8). -/

namespace Sys2Proof.Machine

open Sys2Proof

/-! ### CRC (R2) -/

/-- One bit of the register of R2, kept with the coefficient of the highest power in bit 0, as Ethernet keeps it.
0xEDB88320 is the generator 0x04C11DB7 in that order. -/
def crcShift (r : Word) : Word := if r.getLsbD 0 then (r >>> 1) ^^^ 0xEDB88320#32 else r >>> 1

/-- One byte fed, least significant bit first. -/
def crcByte (r : Word) (b : Byte) : Word :=
  crcShift (crcShift (crcShift (crcShift (crcShift (crcShift (crcShift (crcShift (r ^^^ b.setWidth 32))))))))

/-- R2: the CRC of a string of bytes. PRESUMED (Ethernet's CRC-32): the spec does not say which bit of the register is bit 0
of the number carried (log 5). Unsafe. -/
def crc32 (bytes : List Byte) : Word := ~~~(bytes.foldl crcByte 0xFFFFFFFF#32)

/-- A frame closed with the CRC over its first L bytes (R2, R8). -/
def sealFrame (body : List Byte) : List Byte := body ++ wordBytes (crc32 body)

/-! ### Sweeps (Figure 2-7) -/

/-- Figure 2-7: kind byte of SWEEP. -/
def kindSweep : Byte := 0xA1
/-- Figure 2-8: kind byte of SERVICE. -/
def kindService : Byte := 0xA2
/-- Figure 2-8: kind byte of REPLY. -/
def kindReply : Byte := 0xA3

/-- The kind byte of a frame. -/
def frameKind (bytes : List Byte) : Byte := byteAt bytes 0

/-- The declared length L. -/
def declaredLength (bytes : List Byte) : Nat := (halfAt bytes 1).toNat

/-- Figure 2-7: the bytes of a slot. -/
def slotBytes (sl : Slot) : List Byte := halfBytes sl.number ++ [sl.kind, sl.quality] ++ wordBytes sl.value

/-- Figure 2-7: `n` slots read from bytes. -/
def readSlots : Nat → List Byte → List Slot
  | 0, _ => []
  | n + 1, bs =>
    { number := halfOf (byteAt bs 0) (byteAt bs 1), kind := byteAt bs 2, quality := byteAt bs 3
      value := wordOf (byteAt bs 4) (byteAt bs 5) (byteAt bs 6) (byteAt bs 7) } :: readSlots n (bs.drop 8)

/-- The slot count of a sweep. -/
def slotCount (bytes : List Byte) : Nat := (halfAt bytes 7).toNat

/-- Figure 2-7: a sweep read from a frame. -/
def readSweep (bytes : List Byte) : Sweep :=
  { origin := byteAt bytes 3, governor := byteAt bytes 4, number := halfAt bytes 5
    slots := readSlots (slotCount bytes) (bytes.drop 9) }

/-- Figure 2-7, R8: the bytes of a sweep, with the declared length, the slot count and the CRC that its slots give. -/
def sweepBytes (sw : Sweep) : List Byte :=
  sealFrame ([kindSweep] ++ halfBytes (BitVec.ofNat 16 (9 + 8 * sw.slots.length)) ++ [sw.origin, sw.governor]
    ++ halfBytes sw.number ++ halfBytes (BitVec.ofNat 16 sw.slots.length) ++ (sw.slots.map slotBytes).flatten)

/-- Figure 2-7: origin CONTROLLER. -/
def originController : Byte := 0
/-- Figure 2-7: origin STAND-IN. -/
def originStandIn : Byte := 1

/-! ### Service frames and replies (Figure 2-8) -/

/-- One item of a service frame. -/
structure Item where
  code : Byte
  index : Half
  args : List Word
deriving DecidableEq, Repr

/-- Figure 2-8: the bytes of an item. -/
def itemBytes (it : Item) : List Byte :=
  [it.code, BitVec.ofNat 8 it.args.length] ++ halfBytes it.index ++ (it.args.map wordBytes).flatten

/-- `n` words read from bytes. -/
def readWords : Nat → List Byte → List Word
  | 0, _ => []
  | n + 1, bs => wordOf (byteAt bs 0) (byteAt bs 1) (byteAt bs 2) (byteAt bs 3) :: readWords n (bs.drop 4)

/-- R3: `n` items walked from the first by their declared argument word counts; none if an item declares more than 12 words
or the items do not end exactly with the bytes. -/
def walkItems : Nat → List Byte → Option (List Item)
  | 0, bs => if bs.isEmpty then some [] else none
  | n + 1, bs =>
    let words := (byteAt bs 1).toNat
    if bs.length < 4 ∨ Config.argMax < words ∨ bs.length < 4 + 4 * words then none
    else
      (walkItems n (bs.drop (4 + 4 * words))).map (fun rest =>
        { code := byteAt bs 0, index := halfAt bs 2, args := readWords words (bs.drop 4) } :: rest)

/-- R3: whether `n` results, walked by their returned word counts, end exactly with the bytes and none declares more than 12
words. -/
def walkResults : Nat → List Byte → Bool
  | 0, bs => bs.isEmpty
  | n + 1, bs =>
    let words := (byteAt bs 4).toNat
    if bs.length < 5 ∨ Config.argMax < words ∨ bs.length < 5 + 4 * words then false
    else walkResults n (bs.drop (5 + 4 * words))

/-- The bytes between the seven header bytes of a service frame or reply and its CRC. -/
def frameBody (bytes : List Byte) : List Byte := (bytes.take (declaredLength bytes)).drop 7

/-- The item or result count of a service frame or reply. -/
def itemCount (bytes : List Byte) : Nat := (byteAt bytes 6).toNat

/-- Figure 2-8: the items of a service frame. -/
def serviceItems (bytes : List Byte) : List Item := (walkItems (itemCount bytes) (frameBody bytes)).getD []

/-- Figure 2-8: the destination node address of a service frame. -/
def serviceDestination (bytes : List Byte) : Byte := byteAt bytes 3

/-- Figure 2-8: the tag of a service frame. -/
def serviceTag (bytes : List Byte) : Half := halfAt bytes 4

/-- Figure 2-8: the bytes of a result. -/
def resultBytes (r : ItemResult) : List Byte :=
  [r.code, BitVec.ofNat 8 r.result.toCode] ++ halfBytes r.index ++ [BitVec.ofNat 8 r.words.length]
    ++ (r.words.map wordBytes).flatten

/-- R171, Figure 2-8: the bytes of a reply frame. -/
def replyBytes (source : Byte) (tag : Half) (results : List ItemResult) : List Byte :=
  let body := (results.map resultBytes).flatten
  sealFrame ([kindReply] ++ halfBytes (BitVec.ofNat 16 (7 + body.length)) ++ [source] ++ halfBytes tag
    ++ [BitVec.ofNat 8 results.length] ++ body)

/-! ### Checks (R2, R3) -/

/-- R2: the three common checks. -/
def commonChecks (bytes : List Byte) : Bool :=
  decide (Config.frameSizeMin ≤ bytes.length) && decide (bytes.length ≤ Config.frameSizeMax)
    && declaredLength bytes + 4 == bytes.length
    && bytes.drop (declaredLength bytes) == wordBytes (crc32 (bytes.take (declaredLength bytes)))

/-- R3: the checks of a SWEEP. -/
def sweepChecks (bytes : List Byte) : Bool :=
  decide (slotCount (bytes.take (declaredLength bytes)) ≤ Config.slotMax)
    && (byteAt bytes 3 == originController || byteAt bytes 3 == originStandIn)
    && declaredLength bytes == 9 + 8 * slotCount (bytes.take (declaredLength bytes))

/-- R3: the checks of a SERVICE frame. -/
def serviceChecks (bytes : List Byte) : Bool :=
  decide (7 ≤ declaredLength bytes) && decide (1 ≤ itemCount bytes) && decide (itemCount bytes ≤ Config.itemMax)
    && (walkItems (itemCount bytes) (frameBody bytes)).isSome

/-- R3: the checks of a REPLY. -/
def replyChecks (bytes : List Byte) : Bool :=
  decide (7 ≤ declaredLength bytes) && decide (itemCount bytes ≤ Config.itemMax)
    && walkResults (itemCount bytes) (frameBody bytes)

/-- R2, R3: whether a frame passes its checks, by its kind byte, on either lane and whatever its destination. -/
def frameGood (bytes : List Byte) : Bool :=
  commonChecks bytes &&
    if frameKind bytes = kindSweep then sweepChecks bytes
    else if frameKind bytes = kindService then serviceChecks bytes
    else if frameKind bytes = kindReply then replyChecks bytes
    else true

/-- Whether a frame is a sweep. -/
def isSweep (bytes : List Byte) : Bool := frameKind bytes == kindSweep

/-- R5: whether a frame is a service frame to a node address. -/
def isServiceTo (node : BitVec 6) (bytes : List Byte) : Bool :=
  frameKind bytes == kindService && serviceDestination bytes == node.setWidth 8

end Sys2Proof.Machine
end

