-- ==== Sys2Proof/Machine/Watch.lean ====
section
/-! DEFINITION. The sweep watch: reports, its expiry, and the start and end of stand-in origination (R156 to R159). -/

namespace Sys2Proof.Machine

open Sys2Proof

/-- R159: at the end of origination the generator becomes IDLE and its timer stops. -/
def SweepWatch.endOrigination (w : SweepWatch) : SweepWatch := { w with originating := false, standTimer := none }

/-- R158, R159, R161: the generator becomes ORIGINATING, its timer started with the period as it stands, and the last
originated number set to the last controller sweep number. -/
def SweepWatch.startOrigination (w : SweepWatch) : SweepWatch :=
  { w with originating := true, standTimer := some w.settings.period, lastOriginated := w.lastController }

/-- R157: a report of a controller sweep. -/
def SweepWatch.report (w : SweepWatch) (number : Half) : SweepWatch :=
  let ended := if w.state = .expired then w.endOrigination else w
  { ended with lastController := number, timer := some w.settings.interval, state := .running }

/-- R158: the raise of source 0. -/
def SweepWatch.timeoutRaise (w : SweepWatch) : Raise :=
  { source := .timeout, level := w.settings.level, action := w.settings.action, mask := BitVec.allOnes 6
    sweep := w.lastController, capture := true, handed := .timeout }

/-- R158: the watch expires, raises source 0, and the generator then starts if it is enabled. Outside RUNNING no timer runs
and the event leaves the state as it stands (Figure 10-2; log 2). -/
def State.watchExpiry (s : State) : State :=
  if s.watch.state = .running then
    let expired := s.onWatch (fun w => { w with state := .expired, timer := none })
    let raised := expired.raised s.watch.timeoutRaise
    if raised.watch.settings.enable then raised.onWatch SweepWatch.startOrigination else raised
  else s

/-- SWEEP_WATCH_EXPIRY (R158). -/
def execSweepWatchExpiry (s : State) : Host.Outcome State Fault Refusal := .next s.watchExpiry

/-- MARKER_PULSE_EXPIRY (R153): the line becomes inactive and its timer stops. A stopped timer does not expire, and the
event then leaves the state as it stands (log 2), which this gives. -/
def execMarkerPulseExpiry (line : Line) (s : State) : Host.Outcome State Fault Refusal :=
  .next (s.onMarker line (fun m => { m with timer := none }))

end Sys2Proof.Machine
end

