-- ==== Sys2Proof/Machine/Lanes.lean ====
section
/-! DEFINITION. The lanes and their ports: arrival, waiting room, bypass, passing through, sending, and the stand-in sweep's
entry into the outbound lane (R1, R4 to R8, R10, R157, R159). -/

namespace Sys2Proof.Machine

open Sys2Proof

/-! ### Ports (R7) -/

/-- R7: a lane's frame that is ready begins its sending. -/
def Lane.startSending (l : Lane) : Lane :=
  match l.hand with
  | some (.ready bytes) => { l with hand := some (.sending bytes) }
  | _ => l

/-- Whether a lane's frame is in sending at its output port. -/
def Lane.isSending (l : Lane) : Bool :=
  match l.hand with
  | some (.sending _) => true
  | _ => false

/-- Whether a lane's frame is ready to be sent. -/
def Lane.isReady (l : Lane) : Bool :=
  match l.hand with
  | some (.ready _) => true
  | _ => false

/-- R10: a lane with nothing in hand takes the frame at the head of its waiting frames at once if that frame arrived in
bypass: no block has any work on it. -/
def Lane.takeBypassed (l : Lane) : Lane :=
  match l.hand, l.waiting with
  | none, w :: rest => if w.bypassed then { l with hand := some (.ready w.bytes), waiting := rest } else l
  | _, _ => l

/-- R7: OUT-OUT has one claimant. RET-OUT, when it is free, sends a ready frame of the return lane first, and otherwise the
head reply. -/
def State.startPort (s : State) : LaneId → State
  | .outbound => s.onLane .outbound Lane.startSending
  | .ret =>
    if s.retLane.isSending || s.service.replySending then s
    else if s.retLane.isReady then s.onLane .ret Lane.startSending
    else if s.service.replies.isEmpty then s
    else s.onService (fun v => { v with replySending := true })

/-- A lane and its port go on as far as they can without the work of a block. -/
def State.settle (s : State) (l : LaneId) : State := (s.onLane l Lane.takeBypassed).startPort l

/-! ### Arrival (R1, R4, R10, R157) -/

/-- R4: the bad-frame count increases by one unless it stands at 65,535. -/
def Lane.countBad (l : Lane) : Lane := { l with badFrames := countUp Config.badFrameMax l.badFrames }

/-- R1: whether a lane has room for a further waiting frame. -/
def Lane.hasRoom (l : Lane) : Bool := decide (l.waiting.length < Config.waitingRoom)

/-- R10: a frame that arrives at a lane in bypass is forwarded in its order, unchecked; with four waiting it is discarded
uncounted. -/
def State.arriveBypassed (s : State) (l : LaneId) (bytes : List Byte) : State :=
  if (s.lane l).hasRoom then
    (s.onLane l (fun x =>
      { x with waiting := x.waiting ++ [{ bytes := bytes, bypassed := true, map := [] }] })).settle l
  else s

/-- R5, R157: a controller sweep that arrives on the outbound lane is reported to the sweep watch. -/
def State.reportArrival (s : State) (l : LaneId) (bytes : List Byte) : State :=
  if l = .outbound && isSweep bytes && (readSweep bytes).origin == originController then
    s.onWatch (fun w => w.report (readSweep bytes).number)
  else s

/-- R19: the slot map that a waiting frame keeps from its arrival. -/
def State.mapAtArrival (s : State) (l : LaneId) (bytes : List Byte) : List Binding :=
  if l = .ret && isSweep bytes then s.slotMap else []

/-- R1, R4: a frame that arrives at a lane in normal processing. A bad frame is discarded and counted. A good one is reported
if it is a controller sweep, and waits if there is room; without room it is discarded and counted (log 8). -/
def State.arriveChecked (s : State) (l : LaneId) (bytes : List Byte) : State :=
  if frameGood bytes then
    let told := s.reportArrival l bytes
    if (told.lane l).hasRoom then
      told.onLane l (fun x =>
        { x with waiting := x.waiting ++
            [{ bytes := bytes, bypassed := false, map := s.mapAtArrival l bytes }] })
    else told.onLane l Lane.countBad
  else s.onLane l Lane.countBad

/-- R1, R10: an arrival is treated by the lane's condition at that moment. -/
def State.arrive (s : State) (l : LaneId) (bytes : List Byte) : State :=
  if (s.lane l).bypass then s.arriveBypassed l bytes else s.arriveChecked l bytes

/-- FRAME_ARRIVAL (R1). -/
def execFrameArrival (lane : LaneId) (bytes : List Byte) (s : State) : Host.Outcome State Fault Refusal :=
  .next (s.arrive lane bytes)

/-! ### Taking the next frame of a lane -/

/-- R1: the frame a lane may take next: nothing is in hand, and the frame at the head of the waiting frames arrived in normal
processing. -/
def Lane.next? (l : Lane) : Option Waiting :=
  match l.hand, l.waiting with
  | none, w :: _ => if w.bypassed then none else some w
  | _, _ => none

/-- The head of the waiting frames leaves the waiting room. -/
def Lane.dropHead (l : Lane) : Lane := { l with waiting := l.waiting.tail }

/-- A frame put in hand, ready to be sent (R7). -/
def Lane.ready (l : Lane) (bytes : List Byte) : Lane := { l with hand := some (.ready bytes) }

/-- R5, R6: the frames that a lane passes through byte for byte: on the outbound lane all but sweeps and service frames to
the part's node address, on the return lane all but sweeps. -/
def State.passesThrough (s : State) (l : LaneId) (bytes : List Byte) : Bool :=
  match l with
  | .outbound => !isSweep bytes && !isServiceTo s.unit.nodeAddress bytes
  | .ret => !isSweep bytes

/-- R5, R6, R8: a lane takes a frame that it passes through, and sends it with its bytes as received. -/
def State.passThrough (s : State) (l : LaneId) : State :=
  match (s.lane l).next? with
  | none => s
  | some w =>
    if s.passesThrough l w.bytes then ((s.onLane l Lane.dropHead).onLane l (fun x => x.ready w.bytes)).startPort l else s

/-- FRAME_PASS_THROUGH (R5, R6). -/
def execFramePassThrough (lane : LaneId) (s : State) : Host.Outcome State Fault Refusal := .next (s.passThrough lane)

/-- R7: the sending of a lane's frame ends and the port goes on to what it sends next. With nothing in sending there is no
such event, and the state is left as it stands (log 2). DESIGN CHOICE log 27: R7 does not say when a frame is ready. A frame
that arrived in bypass and waits is taken at once and is ready before the head reply; a checked frame that only needs passing
through is ready when FRAME_PASS_THROUGH takes it, so the head reply goes before it. Unsafe. -/
def State.frameSent (s : State) (l : LaneId) : State :=
  if (s.lane l).isSending then (s.onLane l (fun x => { x with hand := none })).settle l else s

/-- FRAME_SENT (R7). -/
def execFrameSent (lane : LaneId) (s : State) : Host.Outcome State Fault Refusal := .next (s.frameSent lane)

/-! ### Stand-in sweeps (R159) -/

/-- R159: the slot a stand-in sweep carries for a binding, if it carries one. -/
def standInSlot (b : Binding) : Option Slot :=
  match b.role with
  | .setpoint _ => some { number := b.slot, kind := kindSetpoint, quality := 0, value := 0 }
  | .statusGroups | .statusFlags | .notice | .noticeSeq =>
    some { number := b.slot, kind := kindStatus, quality := 0, value := 0 }
  | .feedback _ | .strain _ | .crack _ => none

/-- R159: the stand-in sweep of a number. -/
def State.standInSweep (s : State) (number : Half) : Sweep :=
  { origin := originStandIn, governor := 0, number := number, slots := s.slotMap.filterMap standInSlot }

/-- R159: an expiry of the stand-in timer originates one stand-in sweep, which enters the outbound lane as if it had arrived
at OUT-IN, and restarts the timer. While the generator is IDLE no timer runs (log 2). -/
def State.standIn (s : State) : State :=
  if s.watch.originating then
    let number := s.watch.lastOriginated + 1
    (s.onWatch (fun w => { w with lastOriginated := number, standTimer := some w.settings.period })).arrive .outbound
      (sweepBytes (s.standInSweep number))
  else s

/-- STAND_IN_EXPIRY (R159). -/
def execStandInExpiry (s : State) : Host.Outcome State Fault Refusal := .next s.standIn

end Sys2Proof.Machine
end

