-- ==== Sys2Proof/Machine/ReturnLane.lean ====
section
/-! DEFINITION. Taking a return sweep: feedback intake, strain block, crack watch, status writer, and the sending of the sweep
(R6, R19, R20, R92 to R94). -/

namespace Sys2Proof.Machine

open Sys2Proof

/-! ### Feedback intake (R92 to R94) -/

/-- R94: the raise of an actuator's drive-fault source. -/
def State.driveRaise (s : State) (a : Actuator) (number : Half) : Raise :=
  { source := .drive a, level := (s.actuator a).level, action := .unload
    mask := match (s.actuator a).group with
      | none => 0
      | some g => maskOf [g]
    sweep := number, capture := true, handed := .drive }

/-- R92: a GOOD feedback: the seed becomes the value if it is within range, and the drive-fault source is re-armed. -/
def ActuatorLock.goodFeedback (x : ActuatorLock) (v : Int) : ActuatorLock :=
  { x with seed := if -Config.forceMax ≤ v ∧ v ≤ Config.forceMax then some v else x.seed, armed := true }

/-- R92, R93: what an actuator's FEEDBACK slot does to its seed and to the arming of its drive-fault source, by its quality.
-/
def ActuatorLock.noteFeedback (x : ActuatorLock) (sl : Slot) : ActuatorLock :=
  match qualityOf sl.quality with
  | .good => x.goodFeedback sl.value.toInt
  | .fault => { x with armed := false }
  | .none => x
  | .held | .limited | .saturated | .uncomp | .uncal => { x with armed := true }

/-- R93: the raise of an actuator whose FEEDBACK slot reports FAULT, if its drive-fault source is armed. -/
def State.faultRaise? (s : State) (a : Actuator) (sl : Slot) (number : Half) : Option Raise :=
  if qualityOf sl.quality = .fault ∧ (s.actuator a).armed then some (s.driveRaise a number) else none

/-- R92, R93: one actuator's FEEDBACK slot taken whole, with its raise. -/
def State.takeFeedback (s : State) (a : Actuator) (sl : Slot) (number : Half) : State :=
  (s.onActuator a (fun x => x.noteFeedback sl)).raisedAll (s.faultRaise? a sl number).toList

/-- R92: the seeds and the arming as the feedback slots of a sweep leave them; an absent role changes nothing. -/
def State.feedbackNoted (s : State) (rd : Reading) : State :=
  { s with interlock := { s.interlock with acts := s.interlock.acts.alterAll (fun a x =>
      match rd.slot? s.crack (.feedback a) with
      | none => x
      | some (_, sl) => x.noteFeedback sl) } }

/-- R94: the drive-fault raises of a sweep, in ascending actuator number. -/
def Reading.driveRaises (rd : Reading) (s : State) (number : Half) : List Raise :=
  allActuators.filterMap (fun a =>
    match rd.slot? s.crack (.feedback a) with
    | none => none
    | some (_, sl) => s.faultRaise? a sl number)

/-- R92, R94: the feedback intake, in ascending actuator number. It rewrites no slot. The seeds and the arming of all
actuators are worked out and then the raises are handed over: nothing a raise does reads or changes them (log 17). -/
def State.feedbackIntake (s : State) (map : List Binding) (sw : Sweep) : State :=
  let rd : Reading := { map := map, slots := sw.slots }
  (s.feedbackNoted rd).raisedAll (rd.driveRaises s sw.number)

/-! ### Status writer (R20) -/

/-- R20: one status role written if it is present. -/
def State.writeStatus (s : State) (map : List Binding) (slots : List Slot) (r : Role) (value : Word) : List Slot :=
  match present? s.crack map slots r with
  | none => slots
  | some (i, sl) => putSlot slots i (sl.rewrite kindStatus .good value)

/-- R20: the status writer. -/
def State.statusWriter (s : State) (map : List Binding) (sw : Sweep) : Sweep :=
  let s1 := s.writeStatus map sw.slots .statusGroups s.statusGroups
  let s2 := s.writeStatus map s1 .statusFlags s.statusFlags
  let s3 := s.writeStatus map s2 .notice s.noticeWord
  { sw with slots := s.writeStatus map s3 .noticeSeq s.noticeSeqWord }

/-! ### The course of a return sweep (R6) -/

/-- R6: the order of the blocks. -/
def blockPlace : ReturnBlock → Nat
  | .feedbackIntake => 0 | .strainBlock => 1 | .crackWatch => 2 | .statusWriter => 3

/-- The return lane's frame in hand replaced. -/
def State.inReturn (s : State) (h : Hand) : State := s.onLane .ret (fun l => { l with hand := some h })

/-- R6, R132: a block begins on the sweep in processing: it works out all that it does but its raises, which are owed to the
alarm table, and the next block has the sweep next. The status writer makes no raise, and after it the sweep is ready at
RET-OUT, its CRC computed anew (R8). -/
def State.beginBlock (s : State) (sw : Sweep) (map : List Binding) (b : ReturnBlock) : State :=
  let rd : Reading := { map := map, slots := sw.slots }
  match b with
  | .feedbackIntake => (s.feedbackNoted rd).inReturn (.processing sw map .strainBlock (rd.driveRaises s sw.number))
  | .strainBlock =>
    (s.strainJudged rd).inReturn
      (.processing { sw with slots := rd.conditionedSlots s } map .crackWatch (rd.strainRaises s sw.number))
  | .crackWatch => (s.crackEvaluated rd).inReturn (.processing sw map .statusWriter (rd.watchRaises s sw.number))
  | .statusWriter => (s.inReturn (.ready (sweepBytes (s.statusWriter map sw)))).startPort .ret

/-- R132: the first `n` raises that the block at work on a return sweep still owes are handed to the alarm table, one at a
time. -/
def State.handRaises (s : State) (n : Nat) : State :=
  match s.retLane.hand with
  | some (.processing sw map next owed) => (s.raisedAll (owed.take n)).inReturn (.processing sw map next (owed.drop n))
  | _ => s

/-- R132: the raises still to be handed over of the block at work on a return sweep. -/
def State.owed (s : State) : List Raise :=
  match s.retLane.hand with
  | some (.processing _ _ _ owed) => owed
  | _ => []

/-- R6, R98, R118, R165: the block at work on a return sweep hands the last of its raises, and its work is whole. -/
def State.finishBlock (s : State) : State := s.handRaises s.owed.length

/-- R6: the block that has the return sweep next does its work, if it is not beyond the block named, once the block before has
handed its raises. -/
def State.returnStep (s : State) (through : ReturnBlock) : State :=
  match s.retLane.hand with
  | some (.processing sw map b _) =>
    if blockPlace b ≤ blockPlace through then s.finishBlock.beginBlock sw map b else s
  | _ => s

/-- R132: the block named hands all the raises that it owes, or as many more of them as a number says. -/
def State.handOver (s : State) (through : ReturnReach) : State :=
  match s.retLane.hand with
  | some (.processing _ _ next _) =>
    if blockPlace next = blockPlace through.block + 1 then s.handRaises (through.raises.getD s.owed.length) else s
  | _ => s

/-- R6: the return lane takes the sweep at the head of its waiting frames. -/
def State.takeReturn (s : State) : State :=
  match s.retLane.next? with
  | none => s
  | some w =>
    if isSweep w.bytes then
      (s.onLane .ret Lane.dropHead).inReturn (.processing (readSweep w.bytes) w.map .feedbackIntake [])
    else s

/-- R6, R132: a return sweep taken on through the blocks as far as the one named, with all or some of that block's raises
(log 9). A sweep already in processing goes on from where it stands. With no sweep to take there is no such event, and the
state is left as it stands (log 2). -/
def State.returnSweep (s : State) (through : ReturnReach) : State :=
  let b := through.block
  ((((s.takeReturn.returnStep b).returnStep b).returnStep b).returnStep b).handOver through

/-- RETURN_SWEEP (R6). -/
def execReturnSweep (through : ReturnReach) (s : State) : Host.Outcome State Fault Refusal :=
  .next (s.returnSweep through)

end Sys2Proof.Machine
end

