-- ==== Sys2Proof/Machine/Shaper.lean ====
section
/-! DEFINITION. The load shaper's arithmetic: phase and crossings, the waveform, the envelope, the slew limit and the output of
an actuator by its group's state (R30, R35 to R45). -/

namespace Sys2Proof.Machine

open Sys2Proof

/-! ### Phase (R30) -/

/-- R30: the turning points of one advance. -/
structure Crossing where
  valley : Bool
  peak : Bool
deriving DecidableEq, Repr

/-- No crossing. -/
def Crossing.none : Crossing := { valley := false, peak := false }

/-- R30: the crossings of an advance from an old phase by a phase step. -/
def crossingOf (theta : Half) (step : Nat) : Crossing :=
  { valley := decide (65536 ≤ theta.toNat + step)
    peak := decide (theta.toNat < 32768) && decide (32768 ≤ theta.toNat + step) }

/-- R30: the phase after an advance, less 65,536 where the sum reaches it. -/
def advancePhase (theta : Half) (step : Nat) : Half := theta + BitVec.ofNat 16 step

/-! ### Waveform (R38) -/

/-- R38, steps 2 to 4: the shape value at an entry phase. -/
def shapeValue (table : Vector Int 256) (phi : Half) : Int :=
  let i : Fin 256 := ⟨phi.toNat / 256, by have := phi.isLt; omega⟩
  let f : Nat := phi.toNat % 256
  let j : Fin 256 := i + 1
  table.entry i + (table.entry j - table.entry i) * f / 256

/-- R38, steps 1 and 5: the waveform value of a CYCLIC entry. -/
def waveform (table : Vector Int 256) (e : PageEntry) (theta : Half) : Int :=
  e.mean + roundDiv (e.amplitude * shapeValue table (theta + e.offset)) 32767

/-! ### Envelope and slew (R42 to R44) -/

/-- R43: the previous output moved toward the target by no more than the slew limit. -/
def slewTo (limit : Nat) (prev target : Int) : Int := prev + clampInt (-limit) limit (target - prev)

/-- R42 to R44: stages 4 and 5 in RUN and HOLD, with the quality carried forward. -/
def throughEnvelope (e : PageEntry) (prev target : Int) (held : Bool) : Int × Quality :=
  let t := clampInt e.fmin e.fmax target
  let o := slewTo e.slew prev t
  (o, if t ≠ target ∨ o ≠ t then .limited else if held then .held else .good)

/-- R40, R43, R44: the output of an actuator in UNLOAD. -/
def unloadOutput (rate : Nat) (prev floor : Int) : Int × Quality :=
  let o := slewTo rate prev floor
  (o, if o ≠ floor then .limited else .good)

/-! ### The sweep in hand -/

/-- What the shaper has in hand while it shapes one sweep (R26): the state of the part, the slots as received and as
rewritten, the working states, and for each group the answer of R29 and the crossing of R30 and R31. -/
structure Shaping where
  state : State
  received : List Slot
  slots : List Slot
  number : Half
  working : Vector GroupState 6
  cycling : Vector Bool 6
  crossings : Vector Crossing 6

/-- The slot of a SETPOINT role, if the role is present (R14). -/
def Shaping.setpoint? (x : Shaping) (a : Actuator) : Option (Nat × Slot) :=
  present? x.state.crack x.state.slotMap x.received (.setpoint a)

/-- The previous output of an actuator, its kept output when the sweep was taken (R36). Every actuator of a group that is not
OFF keeps one (R25, R35); 0 stands where no run can come (log 16). -/
def State.previous (s : State) (a : Actuator) : Int := (s.output a).kept.getD 0

/-- R36: the target of a DIRECT actuator in RUN, and whether it is HELD. -/
def Shaping.directTarget (x : Shaping) (a : Actuator) : Int × Bool :=
  match x.setpoint? a with
  | none => (x.state.previous a, true)
  | some (_, sl) => if qualityOf sl.quality = .good then (sl.value.toInt, false) else (x.state.previous a, true)

/-- R36, R37: the target of an actuator in RUN, and whether it is HELD. -/
def Shaping.runTarget (x : Shaping) (g : Group) (a : Actuator) (e : PageEntry) : Int × Bool :=
  match e.mode with
  | .direct => x.directTarget a
  | .cyclic => (waveform (x.state.shapes.entry e.shape) e (x.state.shape (x.state.phaseSource g)).theta, false)

/-- Stages 3 to 5 for one actuator, by the group's working state (Figure 3-3). An actuator without a page entry, where no run
can come (Figure 3-3, "Complete pages"), repeats its previous output (log 16). -/
def Shaping.candidate (x : Shaping) (g : Group) (st : GroupState) (a : Actuator) : Int × Quality :=
  let prev := x.state.previous a
  let act := x.state.actuator a
  match st with
  | .off => (0, .none)
  | .engaging => (prev, .good)
  | .run =>
    match (x.state.activePage g).entries.entry a with
    | none => (prev, .good)
    | some e => throughEnvelope e prev (x.runTarget g a e).1 (x.runTarget g a e).2
  | .hold =>
    match (x.state.activePage g).entries.entry a with
    | none => (prev, .good)
    | some e => throughEnvelope e prev ((x.state.output a).hold.getD prev) false
  | .unload => unloadOutput (x.state.lock g).record.unloadRate prev act.floor
  | .rest => (act.floor, .good)

/-- One output of a sweep: the actuator, its output and its quality. -/
structure Output where
  act : Actuator
  value : Int
  quality : Quality
deriving DecidableEq, Repr

/-- Stages 3 to 5 for the actuators of a group. -/
def Shaping.candidates (x : Shaping) (g : Group) (st : GroupState) : List Output :=
  (x.state.members g).map (fun a =>
    { act := a, value := (x.candidate g st a).1, quality := (x.candidate g st a).2 })

/-- R45, case 2: every actuator takes its previous output, LIMITED. -/
def Shaping.repeated (x : Shaping) (g : Group) : List Output :=
  (x.state.members g).map (fun a => { act := a, value := x.state.previous a, quality := .limited })

/-- R45: the sum of outputs, in exact arithmetic. -/
def sumOf (outs : List Output) : Int := (outs.map (·.value)).sum

/-- R45: S_prev, the sum of the previous outputs. -/
def Shaping.previousSum (x : Shaping) (g : Group) : Int := ((x.state.members g).map x.state.previous).sum

/-- R27: the working states moved by an action of the sweep's own shaping. -/
def Shaping.moveWorking (x : Shaping) (act : Action) (mask : BitVec 6) : Shaping :=
  { x with working := x.working.alterAll (fun g st =>
      if mask.getLsbD g.val then (st.under act).getD st else st) }

end Sys2Proof.Machine
end

