-- ==== Sys2Proof/Machine/Outbound.lean ====
section
/-! DEFINITION. Taking an outbound sweep: stages 1 to 8 for every group in the order of R26, the cycle sequencer and the page
store at stage 2, the interlock's reports, and the sending of the sweep (R26 to R48, R59 to R61, R67 to R70, R84, R85). -/

namespace Sys2Proof.Machine

open Sys2Proof

/-! ### The interlock's reports (R84, R85) -/

/-- R84: the interlock takes the report that ends the engage interval: the group moves from ENGAGING to RUN and its count
becomes 0. Without such a report, or once the group has left ENGAGING, the event leaves the state as it stands (log 10). -/
def State.engageEnd (s : State) (g : Group) : State :=
  if (s.lock g).state = .engaging && (s.lock g).reportDue then s.moveGroup g .run else s

/-- ENGAGE_INTERVAL_END (R84). -/
def execEngageIntervalEnd (g : Group) (s : State) : Host.Outcome State Fault Refusal := .next (s.engageEnd g)

/-- R84: the report of a sweep shaped in ENGAGING. A report that makes the count equal the engage interval stands until
ENGAGE_INTERVAL_END, or the next outbound sweep, takes it (log 10). -/
def State.engageReport (s : State) (g : Group) : State :=
  if (s.lock g).state = .engaging then
    s.onLock g (fun l =>
      if l.engageCount + 1 = l.record.engageInterval then { l with reportDue := true }
      else { l with engageCount := l.engageCount + 1 })
  else s

/-- R85: unload completion. -/
def State.unloadCompletion (s : State) (g : Group) : State :=
  if s.groupState g = .unload then s.moveGroup g .rest else s

/-! ### Taking the sweep (R26, R29) -/

/-- R29: whether a group is cycling, by its working states and the active pages as they stand. -/
def State.cyclingNow (s : State) (working : Vector GroupState 6) (g : Group) : Bool :=
  working.entry g = .run && working.entry (s.phaseSource g) = .run
    && decide (1 ≤ (s.activePage (s.phaseSource g)).step)

/-- R26: the shaper takes a sweep. Reports of an ended engage interval that still stand are taken first (R84; log 10). -/
def State.takeSweep (s : State) (sw : Sweep) : Shaping :=
  let s1 := allGroups.foldl State.engageEnd s
  let working := s1.interlock.groups.alterAll (fun _ l => l.state)
  { state := { s1 with shaper := { s1.shaper with lastTaken := sw.number } }
    received := sw.slots
    slots := sw.slots
    number := sw.number
    working := working
    cycling := working.alterAll (fun g _ => s1.cyclingNow working g)
    crossings := fill 6 Crossing.none }

/-- R26: groups with no lead in ascending number, each followed at once by the groups that name it. -/
def State.shapingOrder (s : State) : List Group :=
  (allGroups.map (fun g => if (s.lead g).isNone then g :: s.linkedTo g else [])).flatten

/-! ### Events that fall while a sweep is being shaped (R28, R132) -/

/-- R28: an event that falls while a sweep is being shaped, as it falls outside one. -/
def State.meet (s : State) : MidEvent → State
  | .returnWork through => s.returnSweep through
  | .watchExpiry => s.watchExpiry
  | .engageEnd g => s.engageEnd g

/-- R28: events taken while a sweep is in hand change the state at once, and nothing of what was fixed when the sweep was
taken. -/
def Shaping.meet (x : Shaping) (es : List MidEvent) : Shaping := { x with state := es.foldl State.meet x.state }

/-! ### Stage 1 (R30, R31) -/

/-- R30, R31: the phase advance of a group that is its own phase source, and the crossing of every group. -/
def Shaping.stage1 (x : Shaping) (g : Group) : Shaping :=
  match x.state.lead g with
  | none =>
    if x.cycling.entry g then
      let theta := (x.state.shape g).theta
      let step := (x.state.activePage g).step
      { x with
        state := x.state.onShape g (fun y => { y with theta := advancePhase theta step })
        crossings := x.crossings.alter g (fun _ => crossingOf theta step) }
    else x
  | some lead =>
    if x.cycling.entry g then
      { x with crossings := x.crossings.alter g (fun _ => x.crossings.entry lead) }
    else x

/-! ### Stage 2: counts, block boundary, swap (R32, R59, R61, R67 to R70) -/

/-- R61: the cycle counted for the group and for each cycling group that names it as lead. -/
def Shaping.countCycle (x : Shaping) (g : Group) : Shaping :=
  { x with state := x.state.onAllCycles (fun h c =>
      if h = g || (x.state.lead h == some g && x.cycling.entry h) then
        { c with total := countUp Config.totalMax c.total, block := countUp Config.blockMax c.block }
      else c) }

/-- R63: the entry that a group's own pointer names. -/
def GroupCycles.current? (c : GroupCycles) : Option BlockEntry := c.schedule[c.pointer]?

/-- R67: the ending entry, if the counting has brought the group's block count to its current entry's target. -/
def State.endingEntry? (s : State) (g : Group) : Option BlockEntry :=
  match (s.cycles.entry g).current? with
  | none => none
  | some e => if (s.cycles.entry g).block = e.target then some e else none

/-- R67, step 2: the pointer moves to the next entry, or to entry 0 after the last. -/
def GroupCycles.nextPointer (c : GroupCycles) : Nat :=
  if c.pointer + 1 < c.schedule.length then c.pointer + 1 else 0

/-- R67, step 3: a pending page is discarded, with COMMIT-OVERRIDDEN set, and the new entry's page is adopted if it is
complete for the group. -/
def State.adoptPage (s : State) (p : Fin 4) (g : Group) : State :=
  let complete := s.complete g p
  s.onPages g (fun y =>
    { y with
      pendingPage := none
      overridden := y.overridden || y.pendingPage.isSome
      active := if complete then p else y.active })

/-- R68: the action and hold cause of a block boundary, if it has any. -/
def boundaryAction (incomplete : Bool) (e : EndAction) : Option (Action × CauseKind) :=
  if incomplete then some (.hold, .incomplete)
  else
    match e with
    | .cont => none
    | .inspect => some (.hold, .inspect)
    | .unload => some (.unload, .inspect)

/-- R68: the raise of the lead's block-stop source. -/
def State.blockRaise (s : State) (lead : Group) (act : Action) (cause : CauseKind) (number : Half) : Raise :=
  { source := .blockStop lead, level := (s.lock lead).record.blockLevel, action := act
    mask := maskOf (lead :: s.linkedTo lead), sweep := number, capture := true, handed := cause }

/-- R68: the end action of a boundary applied: the raise taken by the table, and the working states of the set moved (R27). -/
def Shaping.endAction (x : Shaping) (lead : Group) (what : Option (Action × CauseKind)) : Shaping :=
  match what with
  | none => x
  | some (act, cause) =>
    let r := x.state.blockRaise lead act cause x.number
    { x with state := x.state.raised r }.moveWorking r.action r.mask

/-- R67, steps 1 and 2: the block counts of the set become 0 and the lead's pointer moves. -/
def State.turnBlock (s : State) (lead : Group) : State :=
  (s.onAllCycles (fun h c => if h = lead || s.lead h == some lead then { c with block := 0 } else c)).onCycles lead
    (fun c => { c with pointer := c.nextPointer })

/-- R67, steps 1 to 4: a block boundary of the lead whose ending entry is given, as far as its end action. DESIGN CHOICE log
9: no raise from elsewhere falls between the counting of the cycle (R61) and the boundary, nor within it, after the counts and
the pointer have turned and the page is adopted (steps 1 to 3) and before the raise of the block-stop source (step 4); R132
leaves open where one falls. Unsafe. -/
def Shaping.endBlock (x : Shaping) (lead : Group) (ending : BlockEntry) : Shaping :=
  let set := lead :: x.state.linkedTo lead
  let turned := x.state.turnBlock lead
  let page := ((turned.cycles.entry lead).current?.getD ending).page
  let incomplete := set.any (fun g => !turned.complete g page)
  let adopted := set.foldl (fun s g => s.adoptPage page g) turned
  { x with state := adopted }.endAction lead (boundaryAction incomplete ending.endAction)

/-- R67, step 5, R69: the boundary's capture asked for, and the boundary told to the BLOCK lines of the set. -/
def Shaping.tellBoundary (x : Shaping) (lead : Group) : Shaping :=
  { x with state := (x.state.capture (.block lead) x.number).tellMarkers (fun m =>
      (lead :: x.state.linkedTo lead).any (fun g => m.names .block g)) }

/-- R67: a block boundary of the lead whose ending entry is given, in the order of its five steps. -/
def Shaping.boundary (x : Shaping) (lead : Group) (ending : BlockEntry) : Shaping :=
  (x.endBlock lead ending).tellBoundary lead

/-- R61, R67: a valley crossing of a group that is its own phase source is counted, and may end a block. `mid` falls between
the boundary's end action and its capture (R132; log 9). -/
def Shaping.sequence (x : Shaping) (g : Group) (mid : List MidEvent) : Shaping :=
  if (x.state.lead g).isNone && x.cycling.entry g && (x.crossings.entry g).valley then
    let y := x.countCycle g
    match y.state.endingEntry? g with
    | none => y.meet mid
    | some e => ((y.endBlock g e).meet mid).tellBoundary g
  else x.meet mid

/-- R59: the pending page swapped, or dropped where it is not complete. -/
def State.swap (s : State) (g : Group) : State :=
  match (s.pages.entry g).pendingPage with
  | none => s
  | some p =>
    let complete := s.complete g p
    s.onPages g (fun y => { y with pendingPage := none, active := if complete then p else y.active })

/-- R59: the swap is made at a valley crossing of a cycling group, or while the group is not cycling. -/
def Shaping.swapPage (x : Shaping) (g : Group) : Shaping :=
  if !x.cycling.entry g || (x.crossings.entry g).valley then { x with state := x.state.swap g } else x

/-- R32, R153: the turning points of a cycling group told to the marker lines that name it. -/
def Shaping.tellTurning (x : Shaping) (g : Group) : Shaping :=
  if x.cycling.entry g then
    { x with state := x.state.tellMarkers (fun m =>
        ((x.crossings.entry g).valley && m.names .valley g) || ((x.crossings.entry g).peak && m.names .peak g)) }
  else x

/-- R32: stage 2. -/
def Shaping.stage2 (x : Shaping) (g : Group) (mid : List MidEvent) : Shaping :=
  ((x.sequence g mid).swapPage g).tellTurning g

/-! ### Stage 3: hold values (R39) -/

/-- R39: the hold values set at the first sweep shaped in HOLD, where the group's state last shaped is not HOLD. DEDUCED log 29:
a group that a block boundary moves to HOLD in its first sweep after a RELEASE from HOLD was last shaped in HOLD, so it keeps
its hold values by R39, where R68 says that a group moved to HOLD by a boundary takes its kept output. Unsafe. -/
def State.setHolds (s : State) (g : Group) : State :=
  if (s.shape g).lastShaped = some .hold then s
  else s.onOutputs (fun a o => if (s.actuator a).group == some g then { o with hold := o.kept } else o)

/-! ### Stage 6: the group-sum check (R45, R46) -/

/-- R46: the raise of a group-sum source. -/
def State.sumRaise (s : State) (g : Group) (number : Half) : Raise :=
  { source := .groupSum g, level := (s.lock g).record.sumLevel, action := .unload, mask := maskOf [g], sweep := number
    capture := true, handed := .sum }

/-- R46: a group trips: its source is raised if armed, and the group is worked on in UNLOAD. DESIGN CHOICE log 28: R46 says
that no trip can find the source not armed, but one can, where a tripped group reaches REST and is acknowledged and released
before the next sweep. Then nothing is raised, the sweep is still worked as UNLOAD outputs, and the interlock leaves the group
as it stands. Unsafe. -/
def Shaping.trip (x : Shaping) (g : Group) : Shaping :=
  let s := if (x.state.shape g).sumArmed then x.state.raised (x.state.sumRaise g x.number) else x.state
  { x with
    state := s.onShape g (fun y => { y with sumArmed := false })
    working := x.working.alter g (fun _ => .unload) }

/-- R46: the source is armed again at a sweep at whose stage 6 the group does not trip. -/
def Shaping.rearmSum (x : Shaping) (g : Group) : Shaping :=
  { x with state := x.state.onShape g (fun y => { y with sumArmed := true }) }

/-- R45: stage 6 in ENGAGING, RUN and HOLD, with the outputs it decides. -/
def Shaping.sumCheck (x : Shaping) (g : Group) (cands : List Output) : Shaping × List Output :=
  let limit := (x.state.activePage g).sumLimit
  if (sumOf cands).natAbs ≤ limit then (x.rearmSum g, cands)
  else if (x.previousSum g).natAbs ≤ limit then (x.rearmSum g, x.repeated g)
  else
    let y := x.trip g
    (y, y.candidates g .unload)

/-- Stages 3 to 6 of a group, with the outputs they decide (Figure 3-3). -/
def Shaping.stage3to6 (x : Shaping) (g : Group) : Shaping × List Output :=
  match x.working.entry g with
  | .off => (x.rearmSum g, [])
  | .engaging => x.sumCheck g (x.candidates g .engaging)
  | .run => x.sumCheck g (x.candidates g .run)
  | .hold =>
    let y := { x with state := x.state.setHolds g }
    y.sumCheck g (y.candidates g .hold)
  | .unload => (x.rearmSum g, x.candidates g .unload)
  | .rest => (x.rearmSum g, x.candidates g .rest)

/-! ### Stages 7 and 8 (R34, R47, R48) -/

/-- R47: an output written into its SETPOINT slot if the role is present. -/
def Shaping.writeSlot (x : Shaping) (o : Output) : Shaping :=
  match x.setpoint? o.act with
  | none => x
  | some (i, sl) => { x with slots := putSlot x.slots i (sl.rewrite kindSetpoint o.quality (intWord o.value)) }

/-- R47: one output written and kept. -/
def Shaping.keep (x : Shaping) (o : Output) : Shaping :=
  { x.writeSlot o with
    state := x.state.onOutput o.act (fun y => { y with kept := some o.value, lastQuality := o.quality }) }

/-- R34: an actuator without an output: its slot is written NONE, 0, and no output is kept. -/
def Shaping.writeNone (x : Shaping) (a : Actuator) : Shaping :=
  { x.writeSlot { act := a, value := 0, quality := .none } with
    state := x.state.onOutput a (fun y => { y with kept := none, lastQuality := .none }) }

/-- R34, R47: the state last shaped becomes the working state. -/
def Shaping.markShaped (x : Shaping) (g : Group) : Shaping :=
  { x with state := x.state.onShape g (fun y => { y with lastShaped := some (x.working.entry g) }) }

/-- R34, R47: stage 7. -/
def Shaping.stage7 (x : Shaping) (g : Group) (outs : List Output) : Shaping :=
  if x.working.entry g = .off then ((x.state.members g).foldl Shaping.writeNone x).markShaped g
  else (outs.foldl Shaping.keep x).markShaped g

/-- R48: whether every actuator of the group stands at its floor. -/
def State.atFloors (s : State) (g : Group) : Bool :=
  (s.members g).all (fun a => (s.output a).kept == some (s.actuator a).floor)

/-- R48, R84, R85: stage 8 and the reports to the interlock. -/
def Shaping.stage8 (x : Shaping) (g : Group) : Shaping :=
  match x.working.entry g with
  | .unload => if x.state.atFloors g then { x with state := x.state.unloadCompletion g } else x
  | .engaging => { x with state := x.state.engageReport g }
  | .off | .run | .hold | .rest => x

/-- R29: the answer recorded as the group's cycling at last sweep. -/
def Shaping.recordCycling (x : Shaping) (g : Group) : Shaping :=
  { x with state := x.state.onShape g (fun y => { y with cycling := x.cycling.entry g }) }

/-- R26, R28: a group dealt with through stages 1 to 8, with the events that fall at its five places. -/
def Shaping.dealGroup (x : Shaping) (g : Group) (during : List (List MidEvent)) : Shaping :=
  let paged := ((x.meet (during.getD 0 [])).stage1 g).stage2 g (during.getD 1 [])
  let worked := (paged.meet (during.getD 2 [])).stage3to6 g
  let written := (worked.1.meet (during.getD 3 [])).stage7 g worked.2
  ((written.meet (during.getD 4 [])).stage8 g).recordCycling g

/-! ### The whole sweep -/

/-- R34: the actuators whose records name no group. -/
def State.unassigned (s : State) : List Actuator := allActuators.filter (fun a => (s.actuator a).group.isNone)

/-- R26, R28: groups dealt with in their order, each with the events of its five places (log 9). -/
def Shaping.dealGroups : List Group → List (List MidEvent) → Shaping → Shaping
  | [], during, x => x.meet during.flatten
  | g :: rest, during, x => Shaping.dealGroups rest (during.drop 5) (x.dealGroup g during)

/-- R26: every group dealt with in its order, then the unassigned actuators. -/
def Shaping.dealAll (x : Shaping) (during : List (List MidEvent)) : Shaping :=
  let y := Shaping.dealGroups x.state.shapingOrder during x
  y.state.unassigned.foldl Shaping.writeNone y

/-- R8, R26: a sweep shaped, with the slots as rewritten and the governor byte set to the node address. -/
def State.shapeSweep (s : State) (sw : Sweep) (during : List (List MidEvent)) : State × Sweep :=
  let y := (s.takeSweep sw).dealAll during
  (y.state, { sw with slots := y.slots, governor := y.state.unit.nodeAddress.setWidth 8 })

/-- R5, R26: the outbound lane takes the sweep at the head of its waiting frames, has it shaped and sends it. With a frame
still in hand, or another frame at the head, there is no such event and the state is left as it stands (log 2). -/
def State.outboundSweep (s : State) (during : List (List MidEvent)) : State :=
  match s.outLane.next? with
  | none => s
  | some w =>
    if isSweep w.bytes then
      let shaped := (s.onLane .outbound Lane.dropHead).shapeSweep (readSweep w.bytes) during
      (shaped.1.onLane .outbound (fun l => l.ready (sweepBytes shaped.2))).startPort .outbound
    else s

/-- OUTBOUND_SWEEP (R26). -/
def execOutboundSweep (during : List (List MidEvent)) (s : State) : Host.Outcome State Fault Refusal :=
  .next (s.outboundSweep during)

end Sys2Proof.Machine
end

