-- ==== Sys2Proof/Machine/Items.lean ====
section
/-! DEFINITION. What every service item shares: the answer of a command, its result in the reply, and the qualifiers (R166,
R167). -/

namespace Sys2Proof.Machine

open Sys2Proof

/-- What a command's rule gives: a result code, the returned words and the state. -/
structure Answer where
  code : ResultCode
  words : List Word
  state : State

/-- R166: a refused command changes nothing and returns no words. -/
def refuse (s : State) (code : ResultCode) : Answer := { code := code, words := [], state := s }

/-- A command that gives OK and returns no words. -/
def done (s : State) : Answer := { code := .ok, words := [], state := s }

/-- A command that gives OK and returns words. -/
def answerWords (s : State) (words : List Word) : Answer := { code := .ok, words := words, state := s }

/-- R167: the qualifier state returned to no page and the mark clear. -/
def ServiceHandler.spent (v : ServiceHandler) : ServiceHandler := { v with page := none, quiet := false }

/-- R166: a result put behind the results of the frame. -/
def ServiceHandler.withResult (v : ServiceHandler) (r : ItemResult) : ServiceHandler :=
  { v with results := v.results ++ [r] }

/-- R166, R167: a command item: it takes the qualifier state and returns it to no page and the mark clear, is applied by its
own rule, and is given one result, which QUIET leaves out when its code is OK. -/
def State.command (s : State) (code : Byte) (index : Half) (body : Option (Fin 4) → State → Answer) : State :=
  let a := body s.service.page (s.onService ServiceHandler.spent)
  if s.service.quiet ∧ a.code = .ok then a.state
  else a.state.onService (fun v => v.withResult { code := code, result := a.code, index := index, words := a.words })

/-- R167: a qualifier that is itself at fault is given a result of its own and leaves the qualifier state as it stood. -/
def State.badQualifier (s : State) (code : Byte) (index : Half) : State :=
  s.onService (fun v => v.withResult { code := code, result := .badValue, index := index, words := [] })

/-- Figure 11-1: item code of PAGE. -/
def codePage : Byte := 0x01
/-- Figure 11-1: item code of QUIET. -/
def codeQuiet : Byte := 0x02

/-- PAGE (R167). -/
def itemPage (index : Half) (args : List Word) (s : State) : State :=
  match indexed? 4 index.toNat, args with
  | some p, [] => s.onService (fun v => { v with page := some p })
  | _, _ => s.badQualifier codePage index

/-- QUIET (R167). -/
def itemQuiet (index : Half) (args : List Word) (s : State) : State :=
  if index = 0 ∧ args = [] then s.onService (fun v => { v with quiet := true }) else s.badQualifier codeQuiet index

/-- R166: an item whose code is not in Figure 11-1. -/
def itemUnknown (code : Byte) (index : Half) (s : State) : State :=
  s.command code index (fun _ s => refuse s .unknown)

/-- The forms of a write: its clear form carries no argument words; its ordinary form carries the fields of a record, each
within its range; anything else is BAD_VALUE. -/
inductive Form (α : Type) where
  | clear
  | write (x : α)
  | bad

/-- The form of a write by its argument words, given how the ordinary form is read. -/
def formOf {α : Type} (read : List Word → Option α) (args : List Word) : Form α :=
  match args with
  | [] => .clear
  | _ =>
    match read args with
    | none => .bad
    | some x => .write x

/-- The two parts of an index field: the number times 256, and the rest. -/
def highPart (index : Half) : Nat := index.toNat / 256
/-- The low part of an index field. -/
def lowPart (index : Half) : Nat := index.toNat % 256

/-- A group whose state is one of those that a command of R62, R64 and R65 refuses. -/
def GroupState.isMoving : GroupState → Bool
  | .engaging | .run | .unload => true
  | .off | .hold | .rest => false

end Sys2Proof.Machine
end

