-- ==== Sys2Proof/Machine/GroupItems.lean ====
section
/-! DEFINITION. The items of the interlock: ACTUATOR, GROUP, RELEASE, HOLD, UNLOAD and DISENGAGE (R72, R76 to R81, R89, R91). -/

namespace Sys2Proof.Machine

open Sys2Proof

/-! ### Records (R89, R91) -/

/-- A group or actuator number with 0 for none. -/
def orNone? (n k : Nat) : Option (Option (Fin n)) := if k = 0 then some none else (numbered? n k).map some

/-- R88: the three fields of an actuator record. -/
structure ActuatorFields where
  group : Option Group
  floor : Int
  level : Nat
deriving DecidableEq, Repr

/-- R88: an actuator record after reset. -/
def ActuatorFields.atReset : ActuatorFields := { group := none, floor := 0, level := 7 }

/-- R89: the three fields within their ranges. -/
def actuatorFields? : List Word → Option ActuatorFields
  | [g, u, l] =>
    match orNone? 6 g.toNat with
    | none => none
    | some group =>
      if -Config.forceMax ≤ u.toInt ∧ u.toInt ≤ Config.forceMax ∧ 1 ≤ l.toNat ∧ l.toNat ≤ 7 then
        some { group := group, floor := u.toInt, level := l.toNat }
      else none
  | _ => none

/-- Whether a group that may be none is not OFF. -/
def State.active? (s : State) (g : Option Group) : Bool := g.any (fun g => s.groupState g != .off)

/-- R89: an actuator record replaced. -/
def State.writeActuator (s : State) (a : Actuator) (f : ActuatorFields) : Answer :=
  if s.active? (s.actuator a).group || s.active? f.group then refuse s .state
  else done (s.onActuator a (fun x => { x with group := f.group, floor := f.floor, level := f.level }))

/-- R89. -/
def actuatorBody (index : Half) (args : List Word) (s : State) : Answer :=
  match numbered? 16 index.toNat with
  | none => refuse s .badIndex
  | some a =>
    match formOf actuatorFields? args with
    | .bad => refuse s .badValue
    | .clear => s.writeActuator a ActuatorFields.atReset
    | .write f => s.writeActuator a f

/-- ACTUATOR (R89). -/
def itemActuator (index : Half) (args : List Word) (s : State) : State :=
  s.command 0x11 index (fun _ s => actuatorBody index args s)

/-- R91: the five fields of a group record within their ranges. -/
def groupRecord? : List Word → Option GroupRecord
  | [ru, ei, ld, sl, bl] =>
    match orNone? 6 ld.toNat with
    | none => none
    | some lead =>
      if 1 ≤ ru.toNat ∧ ru.toNat ≤ 65535 ∧ 1 ≤ ei.toNat ∧ ei.toNat ≤ 255 ∧ 1 ≤ sl.toNat ∧ sl.toNat ≤ 7
          ∧ 1 ≤ bl.toNat ∧ bl.toNat ≤ 7 then
        some { unloadRate := ru.toNat, engageInterval := ei.toNat, lead := lead, sumLevel := sl.toNat
               blockLevel := bl.toNat }
      else none
  | _ => none

/-- R72, third check: the chain that a change of lead would make. -/
def State.leadChain (s : State) (g : Group) (lead : Option Group) : Bool :=
  lead.any (fun h => h == g || (s.lead h).isSome) || allGroups.any (fun h => h != g && s.lead h == some g)

/-- R91, third check: the states in which a group record is not written. -/
def GroupState.holdsRecord : GroupState → Bool
  | .engaging | .run | .hold | .unload => true
  | .off | .rest => false

/-- R72, R91: a group record replaced; a change of lead sets the group's block count to 0. -/
def State.writeGroup (s : State) (g : Group) (r : GroupRecord) : Answer :=
  if (s.groupState g).holdsRecord then refuse s .state
  else if r.lead = s.lead g then done (s.onLock g (fun l => { l with record := r }))
  else if s.active? (some g) || s.active? (s.lead g) || s.active? r.lead then refuse s .state
  else if s.leadChain g r.lead then refuse s .chain
  else done ((s.onLock g (fun l => { l with record := r })).onCycles g (fun c => { c with block := 0 }))

/-- R91. -/
def groupBody (index : Half) (args : List Word) (s : State) : Answer :=
  match numbered? 6 index.toNat with
  | none => refuse s .badIndex
  | some g =>
    match formOf groupRecord? args with
    | .bad => refuse s .badValue
    | .clear => s.writeGroup g GroupRecord.atReset
    | .write r => s.writeGroup g r

/-- GROUP (R72, R91). -/
def itemGroup (index : Half) (args : List Word) (s : State) : State :=
  s.command 0x12 index (fun _ s => groupBody index args s)

/-! ### Group commands (R76 to R81) -/

/-- R35, R77: the kept output of each actuator of the group set to its seed. -/
def State.takeSeeds (s : State) (g : Group) : State :=
  s.onOutputs (fun a o => if (s.actuator a).group == some g then { o with kept := (s.actuator a).seed } else o)

/-- R77: RELEASE from OFF. -/
def State.engage (s : State) (g : Group) : State :=
  ((s.moveGroup g .engaging).onShape g (fun x => { x with theta := 0 })).takeSeeds g

/-- R76: checks 3 to 7, the first that fails. -/
def State.releaseRefusal (s : State) (g : Group) : Option ResultCode :=
  if (s.groupState g).isMoving then some .state
  else if s.alarm.latches g then some .latched
  else if (s.members g).isEmpty then some .empty
  else if !s.complete g (s.pages.entry g).active then some .incomplete
  else if s.groupState g = .off ∧ (s.members g).any (fun a => (s.actuator a).seed.isNone) then some .noFeedback
  else none

/-- R77, R78: a RELEASE that passes: from OFF to ENGAGING, from HOLD or REST to RUN. -/
def State.releaseGroup (s : State) (g : Group) : State :=
  if s.groupState g = .off then s.engage g else s.moveGroup g .run

/-- R76 to R78. -/
def releaseBody (index : Half) (args : List Word) (s : State) : Answer :=
  match numbered? 6 index.toNat with
  | none => refuse s .badIndex
  | some g =>
    if args ≠ [] then refuse s .badValue
    else
      match s.releaseRefusal g with
      | some c => refuse s c
      | none => done (s.releaseGroup g)

/-- RELEASE (R76 to R78). -/
def itemRelease (index : Half) (args : List Word) (s : State) : State :=
  s.command 0x21 index (fun _ s => releaseBody index args s)

/-- A move of a group by a command, with the hold cause record written with cause COMMAND (R86). -/
def State.commandMove (s : State) (g : Group) (st : GroupState) : State :=
  (s.moveGroup g st).writeCause g s.commandCause

/-- R79. -/
def holdBody (index : Half) (args : List Word) (s : State) : Answer :=
  match numbered? 6 index.toNat with
  | none => refuse s .badIndex
  | some g =>
    if args ≠ [] then refuse s .badValue
    else
      match s.groupState g with
      | .engaging | .run => done (s.commandMove g .hold)
      | .hold => done s
      | .unload | .rest | .off => refuse s .state

/-- HOLD (R79). -/
def itemHold (index : Half) (args : List Word) (s : State) : State :=
  s.command 0x22 index (fun _ s => holdBody index args s)

/-- R80. -/
def unloadBody (index : Half) (args : List Word) (s : State) : Answer :=
  match numbered? 6 index.toNat with
  | none => refuse s .badIndex
  | some g =>
    if args ≠ [] then refuse s .badValue
    else
      match s.groupState g with
      | .engaging | .run | .hold => done (s.commandMove g .unload)
      | .unload => done s
      | .rest | .off => refuse s .state

/-- UNLOAD (R80). -/
def itemUnload (index : Half) (args : List Word) (s : State) : State :=
  s.command 0x23 index (fun _ s => unloadBody index args s)

/-- R81: a DISENGAGE from ENGAGING writes the hold cause record; one from HOLD or REST leaves it. -/
def disengageBody (index : Half) (args : List Word) (s : State) : Answer :=
  match numbered? 6 index.toNat with
  | none => refuse s .badIndex
  | some g =>
    if args ≠ [] then refuse s .badValue
    else
      match s.groupState g with
      | .engaging => done (s.commandMove g .off)
      | .hold | .rest => done (s.moveGroup g .off)
      | .off => done s
      | .run | .unload => refuse s .state

/-- DISENGAGE (R81). -/
def itemDisengage (index : Half) (args : List Word) (s : State) : State :=
  s.command 0x24 index (fun _ s => disengageBody index args s)

end Sys2Proof.Machine
end

