-- ==== Sys2Proof/Machine/LogItems.lean ====
section
/-! DEFINITION. The items of the alarm table, the capture log, the marker unit, the sweep watch and the service handler: FLOOR,
ACK, READ_PENDING, CAPTURE, CAPTURE_CFG, READ_CAPTURE, MARKER, WATCH, CLEAR_FLAGS, RESTART and READ_RESET_CAUSE (R138, R140,
R142, R148 to R150, R152, R161, R170, R172, R173). -/

namespace Sys2Proof.Machine

open Sys2Proof

/-- The two checks of a command with index 0 and no argument words (R148, R170, R172, R173). DESIGN CHOICE log 30: the rules do
not say which code comes where both fail; the index is checked first. Unsafe. -/
def bareRefusal (index : Half) (args : List Word) : Option ResultCode :=
  if index ≠ 0 then some .badIndex else if args ≠ [] then some .badValue else none

/-! ### Alarm table (R138, R140, R142) -/

/-- R138: the new floor. -/
def floor? : List Word → Option Nat
  | [f] => if f.toNat ≤ 7 then some f.toNat else none
  | _ => none

/-- R138. DESIGN CHOICE log 30: R138 does not say which code comes where the index and the words are both bad; the index is
checked first. Unsafe. -/
def floorBody (index : Half) (args : List Word) (s : State) : Answer :=
  if index ≠ 0 then refuse s .badIndex
  else
    match floor? args with
    | none => refuse s .badValue
    | some f => done { s with alarm := { s.alarm with floor := f } }

/-- FLOOR (R138). -/
def itemFloor (index : Half) (args : List Word) (s : State) : State :=
  s.command 0x1E index (fun _ s => floorBody index args s)

/-- R140: the entry of a source removed. -/
def AlarmTable.without (t : AlarmTable) (src : Source) : AlarmTable :=
  { t with entries := t.entries.filter (fun e => e.source != src) }

/-- R140: the source of an index, none for an unused number or one above 383. -/
def ackSource? (index : Half) : Option Source := if index.toNat ≤ Config.sourceMax then source? index.toNat else none

/-- R140. -/
def ackBody (index : Half) (args : List Word) (s : State) : Answer :=
  match ackSource? index with
  | none => refuse s .badIndex
  | some src =>
    if args ≠ [] then refuse s .badValue
    else
      match s.alarm.entry? src with
      | none => refuse s .notPending
      | some _ => done { s with alarm := s.alarm.without src }

/-- ACK (R140). -/
def itemAck (index : Half) (args : List Word) (s : State) : State :=
  s.command 0x25 index (fun _ s => ackBody index args s)

/-- R142: the seven words of an entry. -/
def entryWords (e : Entry) (count : Nat) : List Word :=
  [natWord e.source.number, natWord e.level, natWord e.action.toCode, natWord e.mask.toNat, natWord e.seq.toNat,
   natWord e.sweep.toNat, natWord count]

/-- R142. DESIGN CHOICE log 30: R142 does not say which code comes where the position exceeds 356 and there are argument words;
the position is checked first, and EMPTY is given only where both checks pass. Unsafe. -/
def readPendingBody (index : Half) (args : List Word) (s : State) : Answer :=
  if 356 < index.toNat then refuse s .badIndex
  else if args ≠ [] then refuse s .badValue
  else
    match s.alarm.order[index.toNat]? with
    | none => refuse s .empty
    | some e => answerWords s (entryWords e s.alarm.entries.length)

/-- READ_PENDING (R142). -/
def itemReadPending (index : Half) (args : List Word) (s : State) : State :=
  s.command 0x31 index (fun _ s => readPendingBody index args s)

/-! ### Capture log (R148 to R150) -/

/-- R148: the word a CAPTURE returns, the sequence number of the stored record or 65,536. -/
def State.captureWord (s : State) : Word :=
  if s.captureFits then natWord s.captures.nextSeq.toNat else natWord 65536

/-- R148. -/
def captureBody (index : Half) (args : List Word) (s : State) : Answer :=
  match bareRefusal index args with
  | some c => refuse s c
  | none => answerWords (s.capture .manual s.shaper.lastTaken) [s.captureWord]

/-- CAPTURE (R148). -/
def itemCapture (index : Half) (args : List Word) (s : State) : State :=
  s.command 0x27 index (fun _ s => captureBody index args s)

/-- R149: the channels of a watch list. -/
def watchList? : List Word → Option (List (Fin 256))
  | [] => some []
  | w :: rest =>
    match indexed? 256 w.toNat, watchList? rest with
    | some c, some cs => if c ∈ cs then none else some (c :: cs)
    | _, _ => none

/-- R149: the watermark and the watch list within their ranges. -/
def captureSettings? : List Word → Option (Nat × List (Fin 256))
  | [] => none
  | mark :: rest =>
    match watchList? rest with
    | none => none
    | some cs =>
      if rest.length ≤ 4 ∧ 1 ≤ mark.toNat ∧ mark.toNat ≤ Config.captureRoom then some (mark.toNat, cs) else none

/-- The watermark and the watch list replaced. -/
def State.setCapture (s : State) (mark : Nat) (cs : List (Fin 256)) : State :=
  { s with captures := { s.captures with watermark := mark, watchList := cs } }

/-- R149. -/
def captureCfgBody (index : Half) (args : List Word) (s : State) : Answer :=
  if index ≠ 0 then refuse s .badIndex
  else
    match formOf captureSettings? args with
    | .bad => refuse s .badValue
    | .clear => done (s.setCapture 32 [])
    | .write x => done (s.setCapture x.1 x.2)

/-- CAPTURE_CFG (R149). -/
def itemCaptureCfg (index : Half) (args : List Word) (s : State) : State :=
  s.command 0x1B index (fun _ s => captureCfgBody index args s)

/-- R150: the output pairs of a part. -/
def pairWords (ps : List (Actuator × Int)) : List Word :=
  (ps.map (fun p => [natWord (numberOf p.1), intWord p.2])).flatten

/-- R150: the watched strain triples. -/
def tripleWords (ts : List (Fin 256 × Int × Quality)) : List Word :=
  (ts.map (fun t => [natWord t.1.val, intWord t.2.1, natWord t.2.2.toCode])).flatten

/-- R150: the words of a trigger: trigger code, source number, raise sequence number and group number. -/
def triggerWords : Trigger → List Word
  | .raised src seq => [0, natWord src.number, natWord seq.toNat, 0]
  | .block lead => [1, natWord 65535, 0, natWord (numberOf lead)]
  | .manual => [2, natWord 65535, 0, 0]

/-- Six fields of four bits each, G1 in bits 0 to 3 (R150). -/
def nibbles (f : Group → Nat) : Word := natWord (allGroups.foldl (fun n g => n + f g * 2 ^ (4 * g.val)) 0)

/-- R150: the words of a part of a record, part 5 for any number above 4. -/
def CaptureRecord.part (r : CaptureRecord) (count : Nat) : Nat → List Word
  | 0 => [natWord r.seq.toNat] ++ triggerWords r.trigger ++
      [natWord r.sweep.toNat, nibbles (fun g => (r.states.entry g).toCode), nibbles (fun g => r.pointers.entry g),
       natWord r.outputs.length, natWord r.strains.length, natWord count]
  | 1 => allGroups.map (fun g => natWord (r.totals.entry g))
  | 2 => pairWords (r.outputs.take 6)
  | 3 => pairWords ((r.outputs.drop 6).take 6)
  | 4 => pairWords (r.outputs.drop 12)
  | _ => tripleWords r.strains

/-- R150: the part number and whether the record is to be removed. -/
def capturePart? (index : Half) : Option (Nat × Bool) :=
  if index.toNat ≤ 5 then some (index.toNat, false)
  else if 256 ≤ index.toNat ∧ index.toNat ≤ 261 then some (index.toNat - 256, true)
  else none

/-- R150: the oldest record removed. -/
def State.dropCapture (s : State) : State := { s with captures := { s.captures with queue := s.captures.queue.tail } }

/-- R150. DESIGN CHOICE log 30: R150 does not say which code comes where the index is bad and there are argument words; the
index is checked first, and EMPTY is given only where both checks pass. Unsafe. -/
def readCaptureBody (index : Half) (args : List Word) (s : State) : Answer :=
  match capturePart? index with
  | none => refuse s .badIndex
  | some (part, remove) =>
    if args ≠ [] then refuse s .badValue
    else
      match s.captures.queue with
      | [] => refuse s .empty
      | r :: _ => answerWords (if remove then s.dropCapture else s) (r.part s.captures.queue.length part)

/-- READ_CAPTURE (R150). -/
def itemReadCapture (index : Half) (args : List Word) (s : State) : State :=
  s.command 0x32 index (fun _ s => readCaptureBody index args s)

/-! ### Marker lines (R152) -/

/-- R152: the four settings of a line within their ranges, the timer stopped. -/
def markerSettings? : List Word → Option MarkerLine
  | [kd, g, w, pol] =>
    match markerKind? kd.toNat, flag? pol.toNat with
    | some kind, some low =>
      if g.toNat ≤ 6 ∧ (kind.namesGroup → g.toNat ≠ 0) ∧ 1 ≤ w.toNat ∧ w.toNat ≤ 255 then
        some { kind := kind, group := g.toNat, width := w.toNat, activeLow := low, timer := none }
      else none
    | _, _ => none
  | _ => none

/-- R152: the settings replaced; a running pulse timer of the line stops. -/
def markerBody (index : Half) (args : List Word) (s : State) : Answer :=
  match numbered? 4 index.toNat with
  | none => refuse s .badIndex
  | some l =>
    match formOf markerSettings? args with
    | .bad => refuse s .badValue
    | .clear => done (s.onMarker l (fun _ => MarkerLine.atReset))
    | .write m => done (s.onMarker l (fun _ => m))

/-- MARKER (R152). In bypass, which holds while the reset line is held, during start-up and for a strap address of 0, no
command reaches the marker unit (R151), and the state is left as it stands (log 1). -/
def itemMarker (index : Half) (args : List Word) (s : State) : State :=
  if s.outLane.bypass then s else s.command 0x1C index (fun _ s => markerBody index args s)

/-! ### Sweep watch (R161) -/

/-- R161: the five settings within their ranges. -/
def watchSettings? : List Word → Option WatchSettings
  | [iv, ac, lv, en, pd] =>
    match action? ac.toNat, flag? en.toNat with
    | some act, some on =>
      if 2 ≤ iv.toNat ∧ iv.toNat ≤ 250 ∧ act ≠ .note ∧ 1 ≤ lv.toNat ∧ lv.toNat ≤ 7 ∧ 250 ≤ pd.toNat
          ∧ pd.toNat ≤ 10000 ∧ pd.toNat % 50 = 0 then
        some { interval := iv.toNat, action := act, level := lv.toNat, enable := on, period := pd.toNat }
      else none
    | _, _ => none
  | _ => none

/-- R161: the settings replaced; running timers run on, and the generator follows the enable. -/
def SweepWatch.configure (w : SweepWatch) (c : WatchSettings) : SweepWatch :=
  let set := { w with settings := c }
  if !c.enable && w.originating then set.endOrigination
  else if c.enable && w.state == .expired && !w.originating then set.startOrigination
  else set

/-- R161. -/
def watchBody (index : Half) (args : List Word) (s : State) : Answer :=
  if index ≠ 0 then refuse s .badIndex
  else
    match formOf watchSettings? args with
    | .bad => refuse s .badValue
    | .clear => done (s.onWatch (fun w => w.configure WatchSettings.atReset))
    | .write c => done (s.onWatch (fun w => w.configure c))

/-- WATCH (R161). In bypass, which holds while the reset line is held, during start-up and for a strap address of 0, no
command reaches the sweep watch and it keeps its reset settings (R156), and the state is left as it stands (log 1). -/
def itemWatch (index : Half) (args : List Word) (s : State) : State :=
  if s.outLane.bypass then s else s.command 0x1D index (fun _ s => watchBody index args s)

/-! ### Flags, restart and reset cause (R170, R172, R173) -/

/-- R170: CAPLOST, SVCDROP and the six COMMIT-OVERRIDDEN flags cleared. -/
def State.clearFlags (s : State) : State :=
  { s with
    captures := { s.captures with lost := false }
    service := { s.service with svcDrop := false }
    pages := s.pages.alterAll (fun _ y => { y with overridden := false }) }

/-- R170. -/
def clearFlagsBody (index : Half) (args : List Word) (s : State) : Answer :=
  match bareRefusal index args with
  | some c => refuse s c
  | none => done s.clearFlags

/-- CLEAR_FLAGS (R170). -/
def itemClearFlags (index : Half) (args : List Word) (s : State) : State :=
  s.command 0x28 index (fun _ s => clearFlagsBody index args s)

/-- R172: the restart condition pending, and the frame ended. -/
def restartBody (index : Half) (args : List Word) (s : State) : Answer :=
  match bareRefusal index args with
  | some c => refuse s c
  | none => done (s.onService (fun v => { v with restartPending := true, frameEnded := true }))

/-- RESTART (R172). -/
def itemRestart (index : Half) (args : List Word) (s : State) : State :=
  s.command 0x2F index (fun _ s => restartBody index args s)

/-- R173: the word of the reset cause record. -/
def ResetUnit.causeWord (u : ResetUnit) : Word :=
  natWord (bitAt u.causePower 0 + bitAt u.causeLine 1 + bitAt u.causeService 2)

/-- R173: the reset cause record cleared. -/
def State.clearCause (s : State) : State :=
  { s with unit := { s.unit with causePower := false, causeLine := false, causeService := false } }

/-- R173. -/
def readResetCauseBody (index : Half) (args : List Word) (s : State) : Answer :=
  match bareRefusal index args with
  | some c => refuse s c
  | none => answerWords s.clearCause [s.unit.causeWord]

/-- READ_RESET_CAUSE (R173). -/
def itemReadResetCause (index : Half) (args : List Word) (s : State) : State :=
  s.command 0x33 index (fun _ s => readResetCauseBody index args s)

end Sys2Proof.Machine
end

