-- ==== Sys2Proof/Machine/PageItems.lean ====
section
/-! DEFINITION. The items of the page store and the cycle sequencer: PAGE_GROUP, PAGE_ACT, SHAPE, COMMIT, BLOCK and
RESET_SCHEDULE (R50, R51, R55 to R58, R62, R64 to R66). -/

namespace Sys2Proof.Machine

open Sys2Proof

/-! ### Pages (R55 to R57) -/

/-- R55: the protection of a page. -/
def State.pageProtection (s : State) (g : Group) (p : Fin 4) : Option ResultCode :=
  if (s.pages.entry g).pendingPage = some p then some .pagePending
  else if (s.pages.entry g).active = p ∧ s.groupState g ≠ .off then some .pageActive
  else none

/-- A page of a group changed. -/
def State.onPage (s : State) (g : Group) (p : Fin 4) (f : Page → Page) : State :=
  s.onPages g (fun y => { y with pages := y.pages.alter p f })

/-- R56: P and Gmax within their ranges. -/
def groupPart? : List Word → Option (Nat × Nat)
  | [p, gmax] =>
    if p.toNat ≤ Config.stepMax ∧ gmax.toNat ≤ Config.sumLimitMax then some (p.toNat, gmax.toNat) else none
  | _ => none

/-- R56. -/
def pageGroupBody (index : Half) (args : List Word) (page : Option (Fin 4)) (s : State) : Answer :=
  match page with
  | none => refuse s .noPage
  | some p =>
    match numbered? 6 index.toNat with
    | none => refuse s .badIndex
    | some g =>
      match formOf groupPart? args with
      | .bad => refuse s .badValue
      | .clear =>
        match s.pageProtection g p with
        | some c => refuse s c
        | none => done (s.onPage g p (fun _ => Page.atReset))
      | .write x =>
        match s.pageProtection g p with
        | some c => refuse s c
        | none => done (s.onPage g p (fun y => { y with step := x.1, sumLimit := x.2 }))

/-- PAGE_GROUP (R55, R56). -/
def itemPageGroup (index : Half) (args : List Word) (s : State) : State :=
  s.command 0x13 index (fun page s => pageGroupBody index args page s)

/-- R57: the eight fields of an actuator entry within the ranges of Figure 4-1, Fmin not above Fmax. -/
def pageEntry? : List Word → Option PageEntry
  | [m, mean, amp, off, sh, lo, hi, r] =>
    match mode? m.toNat, indexed? 4 sh.toNat with
    | some mode, some shape =>
      if -Config.forceMax ≤ mean.toInt ∧ mean.toInt ≤ Config.forceMax ∧ amp.toNat ≤ Config.amplitudeMax
          ∧ off.toNat ≤ 65535 ∧ -Config.forceMax ≤ lo.toInt ∧ lo.toInt ≤ Config.forceMax
          ∧ -Config.forceMax ≤ hi.toInt ∧ hi.toInt ≤ Config.forceMax ∧ lo.toInt ≤ hi.toInt
          ∧ 1 ≤ r.toNat ∧ r.toNat ≤ 65535 then
        some { mode := mode, mean := mean.toInt, amplitude := amp.toNat, offset := BitVec.ofNat 16 off.toNat
               shape := shape, fmin := lo.toInt, fmax := hi.toInt, slew := r.toNat }
      else none
    | _, _ => none
  | _ => none

/-- R57. -/
def pageActBody (index : Half) (args : List Word) (page : Option (Fin 4)) (s : State) : Answer :=
  match page with
  | none => refuse s .noPage
  | some p =>
    match numbered? 6 (highPart index), numbered? 16 (lowPart index) with
    | some g, some a =>
      match formOf pageEntry? args with
      | .bad => refuse s .badValue
      | .clear =>
        match s.pageProtection g p with
        | some c => refuse s c
        | none => done (s.onPage g p (fun y => { y with entries := y.entries.alter a (fun _ => none) }))
      | .write e =>
        match s.pageProtection g p with
        | some c => refuse s c
        | none => done (s.onPage g p (fun y => { y with entries := y.entries.alter a (fun _ => some e) }))
    | _, _ => refuse s .badIndex

/-- PAGE_ACT (R55, R57). -/
def itemPageAct (index : Half) (args : List Word) (s : State) : State :=
  s.command 0x14 index (fun page s => pageActBody index args page s)

/-! ### Shape tables (R50, R51) -/

/-- R51: whether a page has an entry naming a table. -/
def Page.namesShape (p : Page) (t : Fin 4) : Bool :=
  allActuators.any (fun a => (p.entries.entry a).any (fun e => e.shape == t))

/-- R51: a table is in use while a group that is not OFF names it in its active or its pending page. -/
def State.shapeInUse (s : State) (t : Fin 4) : Bool :=
  allGroups.any (fun g => s.groupState g != .off &&
    ((s.activePage g).namesShape t || (s.pages.entry g).pendingPage.any (fun p => (s.page g p).namesShape t)))

/-- R50: the two entries of a word, the lower in bits 0 to 15. -/
def shapePair (w : Word) : List Int := [(w.extractLsb' 0 16).toInt, (w.extractLsb' 16 16).toInt]

/-- R50: the sixteen entries of eight words, none of them -32,768. -/
def shapeEntries? (args : List Word) : Option (List Int) :=
  let entries := (args.map shapePair).flatten
  if args.length = 8 ∧ entries.all (fun x => x != -32768) then some entries else none

/-- R50, R52: the table and the first entry that an index field names; the first entry is a multiple of 16. -/
def shapeIndex? (index : Half) : Option (Fin 4 × Nat) :=
  match indexed? 4 (highPart index) with
  | none => none
  | some t => if lowPart index % 16 = 0 then some (t, lowPart index) else none

/-- R50: sixteen entries written from a first entry on. -/
def writeShape (table : Vector Int 256) (first : Nat) (entries : List Int) : Vector Int 256 :=
  table.alterAll (fun i x => if first ≤ i.val ∧ i.val < first + 16 then entries.getD (i.val - first) x else x)

/-- R50. -/
def shapeBody (index : Half) (args : List Word) (s : State) : Answer :=
  match shapeIndex? index with
  | none => refuse s .badIndex
  | some (t, first) =>
    match shapeEntries? args with
    | none => refuse s .badValue
    | some entries =>
      if s.shapeInUse t then refuse s .shapeInUse
      else done { s with shapes := s.shapes.alter t (fun table => writeShape table first entries) }

/-- SHAPE (R50). -/
def itemShape (index : Half) (args : List Word) (s : State) : State :=
  s.command 0x15 index (fun _ s => shapeBody index args s)

/-! ### Commit (R58) -/

/-- R58: the page number of a COMMIT. -/
def commitPage? : List Word → Option (Fin 4)
  | [p] => indexed? 4 p.toNat
  | _ => none

/-- R58. -/
def commitBody (index : Half) (args : List Word) (s : State) : Answer :=
  match numbered? 6 index.toNat with
  | none => refuse s .badIndex
  | some g =>
    match commitPage? args with
    | none => refuse s .badValue
    | some p =>
      if (s.pages.entry g).pendingPage.isSome then refuse s .commitBusy
      else if !s.complete g p then refuse s .incomplete
      else if (s.pages.entry g).active = p then refuse s .pageActive
      else done (s.onPages g (fun y => { y with pendingPage := some p }))

/-- COMMIT (R58). -/
def itemCommit (index : Half) (args : List Word) (s : State) : State :=
  s.command 0x20 index (fun _ s => commitBody index args s)

/-! ### Block schedule (R64, R65) -/

/-- R64: the three fields of a schedule entry within their ranges. -/
def blockEntry? : List Word → Option BlockEntry
  | [target, page, act] =>
    match indexed? 4 page.toNat, endAction? act.toNat with
    | some p, some e =>
      if 1 ≤ target.toNat ∧ target.toNat ≤ Config.blockMax then
        some { target := target.toNat, page := p, endAction := e }
      else none
    | _, _ => none
  | _ => none

/-- R64: an entry stored in its place, or behind the last. -/
def storeEntry (k : Nat) (e : BlockEntry) (sched : List BlockEntry) : List BlockEntry :=
  if k < sched.length then sched.set k e else sched ++ [e]

/-- R64, fourth check: the entry is, or will be, the current entry of a group that names no lead, and its target is not above
the group's block count. -/
def State.targetTooLow (s : State) (g : Group) (k : Nat) (e : BlockEntry) : Bool :=
  let c := s.cycles.entry g
  (s.lead g).isNone && (k == c.pointer && k < c.schedule.length || c.schedule.isEmpty)
    && decide (e.target ≤ c.block)

/-- R65: the last entry removed, with the pointer and the block counts that follow. -/
def State.removeLast (s : State) (g : Group) : State :=
  let c := s.cycles.entry g
  let named := c.pointer + 1 = c.schedule.length
  let cut := s.onCycles g (fun x =>
    { x with schedule := x.schedule.dropLast, pointer := if named then 0 else x.pointer })
  if named ∧ (s.lead g).isNone then
    cut.onAllCycles (fun h x => if h = g || s.lead h == some g then { x with block := 0 } else x)
  else cut

/-- R64, R65. -/
def blockBody (index : Half) (args : List Word) (s : State) : Answer :=
  match numbered? 6 (highPart index) with
  | none => refuse s .badIndex
  | some g =>
    let k := lowPart index
    let n := (s.cycles.entry g).schedule.length
    match formOf blockEntry? args with
    | .clear =>
      if k + 1 ≠ n then refuse s .badIndex
      else if (s.groupState g).isMoving then refuse s .state
      else done (s.removeLast g)
    | .bad => if Config.scheduleMax ≤ k ∨ n < k then refuse s .badIndex else refuse s .badValue
    | .write e =>
      if Config.scheduleMax ≤ k ∨ n < k then refuse s .badIndex
      else if (s.groupState g).isMoving then refuse s .state
      else if s.targetTooLow g k e then refuse s .badValue
      else done (s.onCycles g (fun x => { x with schedule := storeEntry k e x.schedule }))

/-- BLOCK (R64, R65). -/
def itemBlock (index : Half) (args : List Word) (s : State) : State :=
  s.command 0x1A index (fun _ s => blockBody index args s)

/-! ### RESET_SCHEDULE (R62) -/

/-- R62: the group's counts, pointer and phase become 0, and the block count of each group linked to it. -/
def State.restartSchedule (s : State) (g : Group) : State :=
  (s.onAllCycles (fun h c =>
    if h = g then { c with total := 0, block := 0, pointer := 0 }
    else if s.lead h == some g then { c with block := 0 } else c)).onShape g (fun x => { x with theta := 0 })

/-- R62. -/
def resetScheduleBody (index : Half) (args : List Word) (s : State) : Answer :=
  match numbered? 6 index.toNat with
  | none => refuse s .badIndex
  | some g =>
    if args ≠ [] then refuse s .badValue
    else if (s.groupState g).isMoving then refuse s .state
    else done (s.restartSchedule g)

/-- RESET_SCHEDULE (R62). -/
def itemResetSchedule (index : Half) (args : List Word) (s : State) : State :=
  s.command 0x26 index (fun _ s => resetScheduleBody index args s)

end Sys2Proof.Machine
end

