-- ==== Sys2Proof/Machine/ReadItems.lean ====
section
/-! DEFINITION. READ and its 23 views (R4, R52, R73, R95, R114, R130, R143, R155, R162, R169). -/

namespace Sys2Proof.Machine

open Sys2Proof

/-- Figure 2-11: the result code and the words of a view. -/
abbrev View := ResultCode × List Word

/-- A view refused with BAD_INDEX. -/
def View.badIndex : View := (.badIndex, [])

/-- A view whose index names one of `n` things. -/
def viewOf {n : Nat} (i : Option (Fin n)) (words : Fin n → List Word) : View :=
  match i with
  | none => View.badIndex
  | some i => (.ok, words i)

/-- A view that takes index 0 alone. -/
def viewZero (index : Half) (words : List Word) : View := if index = 0 then (.ok, words) else View.badIndex

/-- A number that may be absent. -/
def optWord (x : Option Nat) (absent : Nat) : Word := natWord (x.getD absent)

/-- R4, R169: LANES. -/
def viewLanes (s : State) (index : Half) : View :=
  viewZero index [natWord s.outLane.badFrames, natWord s.retLane.badFrames]

/-- R169: MAP. -/
def viewMap (s : State) (index : Half) : View :=
  if 383 < index.toNat then View.badIndex
  else
    match s.slotMap[index.toNat]? with
    | none => (.empty, [])
    | some b => (.ok, [natWord b.slot.toNat, natWord b.role.code, natWord s.slotMap.length])

/-- R50: two entries packed into a word. -/
def packPair (lo hi : Int) : Word := BitVec.ofInt 16 hi ++ BitVec.ofInt 16 lo

/-- R52: SHAPE. -/
def viewShape (s : State) (index : Half) : View :=
  match shapeIndex? index with
  | none => View.badIndex
  | some (t, first) =>
    let value (i : Nat) : Int := ((s.shapes.entry t).toList).getD i 0
    (.ok, (List.range 8).map (fun k => packPair (value (first + 2 * k)) (value (first + 2 * k + 1))))

/-- R52: OUTPUT. -/
def viewOutput (s : State) (index : Half) : View :=
  viewOf (numbered? 16 index.toNat) (fun a =>
    let o := s.output a
    [boolWord o.kept.isSome, intWord (o.kept.getD 0), natWord o.lastQuality.toCode, boolWord o.hold.isSome,
     intWord (o.hold.getD 0)])

/-- R52: PHASE. -/
def viewPhase (s : State) (index : Half) : View :=
  viewOf (numbered? 6 index.toNat) (fun g =>
    [natWord (s.shape g).theta.toNat, natWord (numberOf (s.phaseSource g)), boolWord (s.shape g).cycling])

/-- R73: the nine words of an entry of a page. -/
def pageEntryWords (e : Option PageEntry) : List Word :=
  match e with
  | none => List.replicate 9 0
  | some e =>
    [1, natWord e.mode.toCode, intWord e.mean, natWord e.amplitude, natWord e.offset.toNat, natWord e.shape.val,
     intWord e.fmin, intWord e.fmax, natWord e.slew]

/-- R73, R169: PAGE, of the page that the qualifier state names. -/
def viewPage (s : State) (page : Option (Fin 4)) (index : Half) : View :=
  match page with
  | none => (.noPage, [])
  | some p =>
    match numbered? 6 (highPart index) with
    | none => View.badIndex
    | some g =>
      if lowPart index = 0 then (.ok, [natWord (s.page g p).step, natWord (s.page g p).sumLimit])
      else viewOf (numbered? 16 (lowPart index)) (fun a => pageEntryWords ((s.page g p).entries.entry a))

/-- R73: PAGES. -/
def viewPages (s : State) (index : Half) : View :=
  viewOf (numbered? 6 index.toNat) (fun g =>
    let y := s.pages.entry g
    [natWord y.active.val, optWord (y.pendingPage.map (·.val)) 4, boolWord y.overridden, boolWord (s.complete g y.active)])

/-- R73: COUNTS. -/
def viewCounts (s : State) (index : Half) : View :=
  viewOf (numbered? 6 index.toNat) (fun g =>
    let c := s.cycles.entry g
    [natWord c.total, natWord c.block, natWord c.pointer, natWord c.schedule.length, natWord (numberOrZero (s.lead g))])

/-- R73: BLOCK. -/
def viewBlock (s : State) (index : Half) : View :=
  match numbered? 6 (highPart index) with
  | none => View.badIndex
  | some g =>
    if 15 < lowPart index then View.badIndex
    else
      match (s.cycles.entry g).schedule[lowPart index]? with
      | none => (.ok, [0, 0, 0, 0])
      | some e => (.ok, [1, natWord e.target, natWord e.page.val, natWord e.endAction.toCode])

/-- R95: the three words of a hold cause record. -/
def causeWords (c : Option HoldCause) : List Word :=
  match c with
  | none => [0, natWord 65535, 0]
  | some c => [natWord c.cause.toCode, optWord (c.source.map Source.number) 65535, natWord c.sweep.toNat]

/-- R95: INTERLOCK. -/
def viewInterlock (s : State) (index : Half) : View :=
  viewOf (numbered? 6 index.toNat) (fun g =>
    [natWord (s.groupState g).toCode, natWord (s.lock g).engageCount] ++ causeWords (s.lock g).cause)

/-- R95: GROUP. -/
def viewGroup (s : State) (index : Half) : View :=
  viewOf (numbered? 6 index.toNat) (fun g =>
    let r := (s.lock g).record
    [natWord r.unloadRate, natWord r.engageInterval, natWord (numberOrZero r.lead), natWord r.sumLevel,
     natWord r.blockLevel])

/-- R95: ACTUATOR. -/
def viewActuator (s : State) (index : Half) : View :=
  viewOf (numbered? 16 index.toNat) (fun a =>
    let x := s.actuator a
    [natWord (numberOrZero x.group), intWord x.floor, natWord x.level, boolWord x.seed.isSome, intWord (x.seed.getD 0),
     boolWord x.armed])

/-- R114: CAL. -/
def viewCal (s : State) (index : Half) : View :=
  viewOf (indexed? 256 index.toNat) (fun c =>
    match (s.strain.entry c).cal with
    | none => [0, 0, 0, natWord 65535]
    | some r => [1, intWord r.zero, natWord r.gain, optWord (r.comp.map (·.val)) 65535])

/-- R114: LIMIT. -/
def viewLimit (s : State) (index : Half) : View :=
  viewOf (indexed? 256 index.toNat) (fun c =>
    match (s.strain.entry c).limit with
    | none => List.replicate 11 0
    | some r =>
      [1, intWord r.warnLow, intWord r.warnHigh, intWord r.stopLow, intWord r.stopHigh, natWord r.hysteresis,
       natWord r.debounce, natWord r.level, natWord r.action.toCode, natWord r.mask.toNat, boolWord r.capture])

/-- R114: the words of a run: its direction code and its band. -/
def runWords (r : Option (Direction × Band)) : List Word :=
  match r with
  | none => [0, 0]
  | some (.moreSevere, b) => [1, natWord b.toCode]
  | some (.lessSevere, b) => [2, natWord b.toCode]

/-- R114: the words of a latest conditioned value. -/
def latestWords (v : Option (Int × Quality)) : List Word :=
  match v with
  | none => [0, 0, 0]
  | some (e, q) => [1, intWord e, natWord q.toCode]

/-- R114: STRAINSTATE. -/
def viewStrainState (s : State) (index : Half) : View :=
  viewOf (indexed? 256 index.toNat) (fun c =>
    let ch := s.strain.entry c
    [natWord ch.watch.toCode, natWord ch.debounce] ++ runWords ch.run ++ [natWord ch.warnCount] ++ latestWords ch.latest
      ++ [boolWord ch.armed])

/-- R130: CRACK. -/
def viewCrack (s : State) (index : Half) : View :=
  viewOf (indexed? 64 index.toNat) (fun k =>
    match (s.crack.entry k).record with
    | none => List.replicate 9 0
    | some r =>
      [1, natWord r.kind.toCode, natWord r.debounce, natWord r.decay, natWord r.threshold, natWord r.level,
       natWord r.action.toCode, natWord r.mask.toNat, boolWord r.capture])

/-- R130: CRACKSTATE. -/
def viewCrackState (s : State) (index : Half) : View :=
  viewOf (indexed? 64 index.toNat) (fun k =>
    let ch := s.crack.entry k
    [boolWord ch.condition, boolWord ch.sensorFault, natWord ch.debounce, natWord ch.accumulator, boolWord ch.armed])

/-- R130: the members packed as COINC packs them, 255 in each byte after the last. -/
def memberWords (ms : List (Fin 64)) : List Word :=
  let byte (i : Nat) : Byte :=
    match ms[i]? with
    | none => 255
    | some k => BitVec.ofNat 8 k.val
  [wordOf (byte 0) (byte 1) (byte 2) (byte 3), wordOf (byte 4) (byte 5) (byte 6) (byte 7)]

/-- R130: the eight words of a set record. -/
def setRecordWords (r : Option CoincidenceRecord) : List Word :=
  match r with
  | none => List.replicate 8 0
  | some r =>
    [1, natWord r.minimum, natWord r.level, natWord r.action.toCode, natWord r.mask.toNat, boolWord r.capture]
      ++ memberWords r.members

/-- R130: COINC. -/
def viewCoinc (s : State) (index : Half) : View :=
  viewOf (numbered? 8 index.toNat) (fun n =>
    let st := s.sets.entry n
    setRecordWords st.record ++ [natWord st.lastCount, boolWord st.armed])

/-- R143: ALARM. -/
def viewAlarm (s : State) (index : Half) : View :=
  match ackSource? index with
  | none => View.badIndex
  | some src =>
    match s.alarm.entry? src with
    | none => (.ok, List.replicate 6 0)
    | some e =>
      (.ok, [1, natWord e.level, natWord e.action.toCode, natWord e.mask.toNat, natWord e.seq.toNat,
             natWord e.sweep.toNat])

/-- R143: NOTICES. -/
def viewNotices (s : State) (index : Half) : View :=
  viewZero index [natWord s.alarm.floor, natWord s.alarm.counter.toNat, natWord s.alarm.entries.length,
    natWord s.alarm.presentedNumber]

/-- R155: CAPLOG. -/
def viewCaplog (s : State) (index : Half) : View :=
  let c := s.captures
  viewZero index ([natWord c.queue.length, natWord c.nextSeq.toNat, natWord c.watermark, boolWord c.lost,
    boolWord c.capwm, natWord c.watchList.length]
    ++ (List.range 4).map (fun i => optWord ((c.watchList[i]?).map (·.val)) 65535))

/-- R155: MARKER. -/
def viewMarker (s : State) (index : Half) : View :=
  viewOf (numbered? 4 index.toNat) (fun l =>
    let m := s.markers.entry l
    [natWord m.kind.toCode, natWord m.group, natWord m.width, boolWord m.activeLow, boolWord (s.lineActive l),
     boolWord m.timer.isSome])

/-- R162: WATCH. -/
def viewWatch (s : State) (index : Half) : View :=
  let w := s.watch
  let c := w.settings
  viewZero index [natWord c.interval, natWord c.action.toCode, natWord c.level, boolWord c.enable, natWord c.period,
    natWord w.state.toCode, boolWord w.originating, w.lastOriginated ++ w.lastController]

/-- Figure 11-2: the view of a table kind. -/
def viewKind (s : State) (page : Option (Fin 4)) (index : Half) (kind : Nat) : View :=
  match kind with
  | 1 => viewLanes s index
  | 2 => viewMap s index
  | 3 => viewShape s index
  | 4 => viewOutput s index
  | 5 => viewPhase s index
  | 6 => viewPage s page index
  | 7 => viewPages s index
  | 8 => viewCounts s index
  | 9 => viewBlock s index
  | 10 => viewInterlock s index
  | 11 => viewGroup s index
  | 12 => viewActuator s index
  | 13 => viewCal s index
  | 14 => viewLimit s index
  | 15 => viewStrainState s index
  | 16 => viewCrack s index
  | 17 => viewCrackState s index
  | 18 => viewCoinc s index
  | 19 => viewAlarm s index
  | 20 => viewNotices s index
  | 21 => viewCaplog s index
  | 22 => viewMarker s index
  | 23 => viewWatch s index
  | _ => (.badValue, [])

/-- R169: READ changes nothing that it reads. -/
def readBody (index : Half) (args : List Word) (page : Option (Fin 4)) (s : State) : Answer :=
  match args with
  | [kind] => { code := (viewKind s page index kind.toNat).1, words := (viewKind s page index kind.toNat).2, state := s }
  | _ => refuse s .badValue

/-- READ (R169). -/
def itemRead (index : Half) (args : List Word) (s : State) : State :=
  s.command 0x30 index (fun page s => readBody index args page s)

end Sys2Proof.Machine
end

