-- ==== Sys2Proof/Machine/Reset.lean ====
section
/-! DEFINITION. Reset: assertion and release of the reset line, power-on, the completion of start-up, and the service restart
(R9, R11, R172, R173). -/

namespace Sys2Proof.Machine

open Sys2Proof

/-- R9: a lane on assertion: in bypass, its count 0, its waiting frames and a frame in processing or ready discarded, and a
frame in sending kept to its end. -/
def Lane.asserted (l : Lane) : Lane :=
  { bypass := true, badFrames := 0, waiting := [], hand := if l.isSending then l.hand else none }

/-- R9, R163, R172: the service handler on assertion: a reply in sending is kept to its end and no longer carries a restart;
all else takes its reset values. -/
def ServiceHandler.asserted (v : ServiceHandler) : ServiceHandler :=
  { ServiceHandler.atReset with
    replies := if v.replySending then (v.replies.take 1).map (fun r => { r with restart := false }) else []
    replySending := v.replySending && !v.replies.isEmpty }

/-- R9: every block at its reset values. The command queue, the levels at the reset line and the supplies, and the reset cause
record (R163) are not reset; start-up is not in progress and the node address is 0. -/
def State.assertReset (s : State) : State :=
  { State.reset with
    pending := s.pending
    unit := { s.unit with startup := false, nodeAddress := 0 }
    outLane := s.outLane.asserted
    retLane := s.retLane.asserted
    service := s.service.asserted }

/-- R9: start-up begins at a release, once neither the line nor the supplies hold the part in reset (log 11). -/
def ResetUnit.begin (u : ResetUnit) : ResetUnit := { u with startup := !u.lineHeld && u.suppliesSteady }

/-- R9, R173: an assertion of the reset line. The line is a level: while it is held it cannot be asserted again (log 12). -/
def State.lineAssert (s : State) : State :=
  if s.unit.lineHeld then s
  else
    let r := s.assertReset
    { r with unit := { r.unit with lineHeld := true, causeLine := true } }

/-- RESET_ASSERT (R9). -/
def execResetAssert (s : State) : Host.Outcome State Fault Refusal := .next s.lineAssert

/-- R9: the release of the reset line begins start-up. -/
def State.lineRelease (s : State) : State :=
  if s.unit.lineHeld then
    { s with unit := { s.unit with lineHeld := false, startup := s.unit.suppliesSteady } }
  else s

/-- RESET_RELEASE (R9). -/
def execResetRelease (s : State) : Host.Outcome State Fault Refusal := .next s.lineRelease

/-- R9, R173: power-on acts as an assertion held until the supplies are steady, sets POWER and clears LINE and SERVICE. -/
def State.powerUp (s : State) : State :=
  let r := s.assertReset
  { r with unit := { r.unit with suppliesSteady := false, causePower := true, causeLine := false, causeService := false } }

/-- POWER_ON (R9). -/
def execPowerOn (s : State) : Host.Outcome State Fault Refusal := .next s.powerUp

/-- R9: the supplies become steady, which ends the assertion that power-on acts as. -/
def State.steady (s : State) : State :=
  if s.unit.suppliesSteady then s
  else { s with unit := { s.unit with suppliesSteady := true, startup := !s.unit.lineHeld } }

/-- SUPPLIES_STEADY (R9). -/
def execSuppliesSteady (s : State) : Host.Outcome State Fault Refusal := .next s.steady

/-- R11: start-up completes. The strap pins are read as the node address, and both lanes leave bypass unless it is 0. With no
start-up in progress there is no such event, and the state is left as it stands (log 2). -/
def State.startupDone (s : State) (straps : BitVec 6) : State :=
  if s.unit.startup then
    let read := { s with unit := { s.unit with startup := false, nodeAddress := straps } }
    if straps = 0 then read
    else
      { read with
        outLane := { s.outLane with bypass := false }
        retLane := { s.retLane with bypass := false } }
  else s

/-- STARTUP_COMPLETE (R11). -/
def execStartupComplete (straps : BitVec 6) (s : State) : Host.Outcome State Fault Refusal :=
  .next (s.startupDone straps)

/-- R172: the service restart, an assertion of the reset line followed at once by its release, which sets SERVICE and not
LINE (R173). -/
def State.serviceRestart (s : State) : State :=
  let r := s.assertReset
  { r with unit := { r.unit with causeService := true }.begin }

/-- R171, R172: the sending of the head reply ends and it leaves the queue. If it carried a pending RESTART the part restarts
then; otherwise RET-OUT goes on to what it sends next (log 14). -/
def State.replySent (s : State) : State :=
  match s.service.replySending, s.service.replies with
  | true, r :: rest =>
    let left := s.onService (fun v => { v with replies := rest, replySending := false })
    if r.restart && s.service.restartPending then left.serviceRestart else left.startPort .ret
  | _, _ => s

/-- REPLY_SENT (R171). -/
def execReplySent (s : State) : Host.Outcome State Fault Refusal := .next s.replySent

end Sys2Proof.Machine
end

