-- ==== Sys2Proof/Machine/MapItems.lean ====
section
/-! DEFINITION. MAP, and the channel resets it makes (R13, R15 to R18, R93). -/

namespace Sys2Proof.Machine

open Sys2Proof

/-- R13: a binding put into its place in ascending slot number. -/
def insertBinding (b : Binding) : List Binding → List Binding
  | [] => [b]
  | c :: rest => if b.slot.toNat < c.slot.toNat then b :: c :: rest else c :: insertBinding b rest

/-- R17: the binding of a slot number removed; those after it keep their order. -/
def removeBinding (n : Half) (map : List Binding) : List Binding := map.filter (fun b => b.slot != n)

/-- R18: a strain channel reset; its records and its warn-entry count are kept. -/
def StrainChannel.resetWatch (ch : StrainChannel) : StrainChannel :=
  { ch with watch := .normal, debounce := 0, run := none, latest := none, armed := true }

/-- R18, R117: a crack channel reset; its record is kept. -/
def CrackChannel.resetState (ch : CrackChannel) : CrackChannel :=
  { ch with condition := false, sensorFault := false, debounce := 0, accumulator := 0, armed := true }

/-- R18, R93: what binding or unbinding a role does beside the map. -/
def State.resetForRole (s : State) (r : Role) : State :=
  match r with
  | .strain c => s.onStrain c StrainChannel.resetWatch
  | .crack k => s.onCrack k CrackChannel.resetState
  | .feedback a => s.onActuator a (fun x => { x with armed := true })
  | .setpoint _ | .statusGroups | .statusFlags | .notice | .noticeSeq => s

/-- R17: unbinding a FEEDBACK role clears the actuator's seed. -/
def State.clearSeed (s : State) (r : Role) : State :=
  match r with
  | .feedback a => s.onActuator a (fun x => { x with seed := none })
  | .setpoint _ | .strain _ | .crack _ | .statusGroups | .statusFlags | .notice | .noticeSeq => s

/-- R15, second check: a SETPOINT or FEEDBACK role of an actuator assigned to a group that is not OFF. -/
def State.roleBusy (s : State) (r : Role) : Bool :=
  match r.actuator? with
  | none => false
  | some a =>
    match (s.actuator a).group with
    | none => false
    | some g => s.groupState g != .off

/-- R15, third check: the slot number carries another role, or the role is bound to another slot number. -/
def State.bindConflict (s : State) (n : Half) (r : Role) : Bool :=
  (roleAt? s.slotMap n).any (fun q => q != r) || (slotOf? s.slotMap r).any (fun m => m != n)

/-- R16: the binding made. -/
def State.bindRole (s : State) (n : Half) (r : Role) : State :=
  { s with slotMap := insertBinding { slot := n, role := r } s.slotMap }.resetForRole r

/-- R17: the binding removed. -/
def State.unbindRole (s : State) (n : Half) (r : Role) : State :=
  ({ s with slotMap := removeBinding n s.slotMap }.resetForRole r).clearSeed r

/-- R15 to R17. An argument word count other than 1 is refused with BAD_VALUE (DEDUCED, log 6). Unsafe. -/
def mapBody (index : Half) (args : List Word) (s : State) : Answer :=
  match args with
  | [w] =>
    match roleCode? w with
    | none => refuse s .badValue
    | some .unbind =>
      match roleAt? s.slotMap index with
      | none => done s
      | some r => if s.roleBusy r then refuse s .state else done (s.unbindRole index r)
    | some (.bind r) =>
      if s.roleBusy r then refuse s .state
      else if s.bindConflict index r then refuse s .bound
      else if roleAt? s.slotMap index = some r then done s
      else done (s.bindRole index r)
  | _ => refuse s .badValue

/-- MAP (R15 to R18). -/
def itemMap (index : Half) (args : List Word) (s : State) : State :=
  s.command 0x10 index (fun _ s => mapBody index args s)

end Sys2Proof.Machine
end

