-- ==== Sys2Proof/Machine/WatchItems.lean ====
section
/-! DEFINITION. The items of the strain block and the crack watch: CAL, LIMIT, CRACK and COINC (R97, R104, R105, R116, R117,
R127). -/

namespace Sys2Proof.Machine

open Sys2Proof

/-! ### CAL (R97) -/

/-- R97: a compensation channel, 65,535 meaning none. -/
def compensation? (n : Nat) : Option (Option (Fin 256)) := if n = 65535 then some none else (indexed? 256 n).map some

/-- R97: the three fields of a calibration record within their ranges. -/
def calibration? : List Word → Option Calibration
  | [z, g, comp] =>
    match compensation? comp.toNat with
    | none => none
    | some c =>
      if -8388608 ≤ z.toInt ∧ z.toInt ≤ 8388607 ∧ 1 ≤ g.toNat ∧ g.toNat ≤ 16777215 then
        some { zero := z.toInt, gain := g.toNat, comp := c }
      else none
  | _ => none

/-- R97, third check: the chain that a compensation channel would make. -/
def State.compensationChain (s : State) (c : Fin 256) (comp : Option (Fin 256)) : Bool :=
  match comp with
  | none => false
  | some d =>
    d == c || (s.strain.entry d).cal.any (fun r => r.comp.isSome)
      || allStrain.any (fun e => e != c && (s.strain.entry e).cal.any (fun r => r.comp == some c))

/-- R97. -/
def calBody (index : Half) (args : List Word) (s : State) : Answer :=
  match indexed? 256 index.toNat with
  | none => refuse s .badIndex
  | some c =>
    match formOf calibration? args with
    | .bad => refuse s .badValue
    | .clear => done (s.onStrain c (fun ch => { ch with cal := none }))
    | .write r =>
      if s.compensationChain c r.comp then refuse s .chain
      else done (s.onStrain c (fun ch => { ch with cal := some r }))

/-- CAL (R97). -/
def itemCal (index : Half) (args : List Word) (s : State) : State :=
  s.command 0x16 index (fun _ s => calBody index args s)

/-! ### LIMIT (R104, R105) -/

/-- A strain limit within its range. -/
def strainInRange (x : Int) : Bool := decide (-Config.strainMax ≤ x) && decide (x ≤ Config.strainMax)

/-- R104: the ten fields of a limit record, each within its range and in order. -/
def limitRecord? : List Word → Option LimitRecord
  | [wl, wh, sl, sh, h, d, lv, ac, mk, cf] =>
    match action? ac.toNat, mask? mk.toNat, flag? cf.toNat with
    | some act, some mask, some cap =>
      if strainInRange wl.toInt ∧ strainInRange wh.toInt ∧ strainInRange sl.toInt ∧ strainInRange sh.toInt
          ∧ h.toNat ≤ Config.hysteresisMax ∧ 1 ≤ d.toNat ∧ d.toNat ≤ 15 ∧ lv.toNat ≤ 7
          ∧ wl.toInt < wh.toInt ∧ sl.toInt ≤ wl.toInt ∧ wh.toInt ≤ sh.toInt
          ∧ 2 * (h.toNat : Int) ≤ wh.toInt - wl.toInt then
        some { warnLow := wl.toInt, warnHigh := wh.toInt, stopLow := sl.toInt, stopHigh := sh.toInt
               hysteresis := h.toNat, debounce := d.toNat, level := lv.toNat, action := act, mask := mask
               capture := cap }
      else none
    | _, _, _ => none
  | _ => none

/-- R104, R105. -/
def limitBody (index : Half) (args : List Word) (s : State) : Answer :=
  match indexed? 256 index.toNat with
  | none => refuse s .badIndex
  | some c =>
    match formOf limitRecord? args with
    | .bad => refuse s .badValue
    | .clear => done (s.onStrain c (fun ch =>
        { ch with limit := none, watch := .normal, debounce := 0, run := none, armed := true }))
    | .write r => done (s.onStrain c (fun ch => { ch with limit := some r, debounce := 0, run := none }))

/-- LIMIT (R104, R105). -/
def itemLimit (index : Half) (args : List Word) (s : State) : State :=
  s.command 0x17 index (fun _ s => limitBody index args s)

/-! ### CRACK (R116, R117) -/

/-- R116: the eight fields of a crack channel record within their ranges. -/
def crackRecord? : List Word → Option CrackRecord
  | [kd, d, k, t, lv, ac, mk, cf] =>
    match crackKind? kd.toNat, action? ac.toNat, mask? mk.toNat, flag? cf.toNat with
    | some kind, some act, some mask, some cap =>
      if 1 ≤ d.toNat ∧ d.toNat ≤ 15 ∧ 1 ≤ k.toNat ∧ k.toNat ≤ 8 ∧ 1 ≤ t.toNat ∧ t.toNat ≤ Config.accumulatorMax
          ∧ lv.toNat ≤ 7 then
        some { kind := kind, debounce := d.toNat, decay := k.toNat, threshold := t.toNat, level := lv.toNat
               action := act, mask := mask, capture := cap }
      else none
    | _, _, _, _ => none
  | _ => none

/-- R117: a record written; a kind kept sets the debounce count to 0, any other write resets the channel. -/
def CrackChannel.writeRecord (ch : CrackChannel) (r : CrackRecord) : CrackChannel :=
  if ch.record.any (fun old => old.kind == r.kind) then { ch with record := some r, debounce := 0 }
  else { ch.resetState with record := some r }

/-- R116, R117. -/
def crackBody (index : Half) (args : List Word) (s : State) : Answer :=
  match indexed? 64 index.toNat with
  | none => refuse s .badIndex
  | some k =>
    match formOf crackRecord? args with
    | .bad => refuse s .badValue
    | .clear => done (s.onCrack k (fun ch => { ch.resetState with record := none }))
    | .write r => done (s.onCrack k (fun ch => ch.writeRecord r))

/-- CRACK (R116, R117). -/
def itemCrack (index : Half) (args : List Word) (s : State) : State :=
  s.command 0x18 index (fun _ s => crackBody index args s)

/-! ### COINC (R127) -/

/-- R127: the members that eight bytes name, 255 naming none; none at all if a byte is neither 0..63 nor 255. -/
def members? (bytes : List Byte) : Option (List (Fin 64)) :=
  if bytes.all (fun b => decide (b.toNat < 64) || b == 255) then
    some (bytes.filterMap (fun b => indexed? 64 b.toNat))
  else none

/-- R127: the fields of a set record within their ranges. -/
def coincidence? : List Word → Option CoincidenceRecord
  | [m, lv, ac, mk, cf, w6, w7] =>
    match action? ac.toNat, mask? mk.toNat, flag? cf.toNat, members? (wordBytes w6 ++ wordBytes w7) with
    | some act, some mask, some cap, some ms =>
      if ms ≠ [] ∧ ms.Nodup ∧ 1 ≤ m.toNat ∧ m.toNat ≤ 8 ∧ m.toNat ≤ ms.length ∧ lv.toNat ≤ 7 then
        some { members := ms, minimum := m.toNat, level := lv.toNat, action := act, mask := mask, capture := cap }
      else none
    | _, _, _, _ => none
  | _ => none

/-- R127. -/
def coincBody (index : Half) (args : List Word) (s : State) : Answer :=
  match numbered? 8 index.toNat with
  | none => refuse s .badIndex
  | some n =>
    match formOf coincidence? args with
    | .bad => refuse s .badValue
    | .clear => done (s.onSet n (fun _ => CoincidenceSet.atReset))
    | .write r => done (s.onSet n (fun st => { st with record := some r }))

/-- COINC (R127). -/
def itemCoinc (index : Half) (args : List Word) (s : State) : State :=
  s.command 0x19 index (fun _ s => coincBody index args s)

end Sys2Proof.Machine
end

