-- ==== Sys2Proof/Machine/Service.lean ====
section
/-! DEFINITION. The service handler: the items by their codes, a service frame applied whole, its reply, and the meanings of
the items as commands (R163 to R168, R171, R172, Figure 11-1). -/

namespace Sys2Proof.Machine

open Sys2Proof

/-- Figure 11-1: an item taken by its item code; a code that is not in the figure is refused with UNKNOWN (R166). -/
def applyItem (it : Item) (s : State) : State :=
  match it.code.toNat with
  | 0x01 => itemPage it.index it.args s
  | 0x02 => itemQuiet it.index it.args s
  | 0x10 => itemMap it.index it.args s
  | 0x11 => itemActuator it.index it.args s
  | 0x12 => itemGroup it.index it.args s
  | 0x13 => itemPageGroup it.index it.args s
  | 0x14 => itemPageAct it.index it.args s
  | 0x15 => itemShape it.index it.args s
  | 0x16 => itemCal it.index it.args s
  | 0x17 => itemLimit it.index it.args s
  | 0x18 => itemCrack it.index it.args s
  | 0x19 => itemCoinc it.index it.args s
  | 0x1A => itemBlock it.index it.args s
  | 0x1B => itemCaptureCfg it.index it.args s
  | 0x1C => itemMarker it.index it.args s
  | 0x1D => itemWatch it.index it.args s
  | 0x1E => itemFloor it.index it.args s
  | 0x20 => itemCommit it.index it.args s
  | 0x21 => itemRelease it.index it.args s
  | 0x22 => itemHold it.index it.args s
  | 0x23 => itemUnload it.index it.args s
  | 0x24 => itemDisengage it.index it.args s
  | 0x25 => itemAck it.index it.args s
  | 0x26 => itemResetSchedule it.index it.args s
  | 0x27 => itemCapture it.index it.args s
  | 0x28 => itemClearFlags it.index it.args s
  | 0x2F => itemRestart it.index it.args s
  | 0x30 => itemRead it.index it.args s
  | 0x31 => itemReadPending it.index it.args s
  | 0x32 => itemReadCapture it.index it.args s
  | 0x33 => itemReadResetCause it.index it.args s
  | _ => itemUnknown it.code it.index s

/-- R165, R172: the items of a frame in order, as far as a RESTART that ends the frame. -/
def applyItems : List Item → State → State
  | [], s => s
  | it :: rest, s =>
    let t := applyItem it s
    if t.service.frameEnded then t else applyItems rest t

/-- R167: the qualifier state begins each frame with no page and the mark clear, and no result stands yet. -/
def ServiceHandler.openFrame (v : ServiceHandler) : ServiceHandler :=
  { v with page := none, quiet := false, results := [], frameEnded := false }

/-- Figure 11-1: whether an item is a qualifier. -/
def Item.isQualifier (it : Item) : Bool := it.code == codePage || it.code == codeQuiet

/-- R168: the last qualifier item of a frame. -/
def lastQualifier? (items : List Item) : Option Item := items.reverse.find? Item.isQualifier

/-- R168: the orphan result, with the item code and index of the last qualifier item of the frame (log 18). -/
def State.orphan (s : State) (items : List Item) : State :=
  if !s.service.frameEnded && (s.service.page.isSome || s.service.quiet) then
    match lastQualifier? items with
    | none => s
    | some it => s.onService (fun v =>
        v.withResult { code := it.code, result := .orphan, index := it.index, words := [] })
  else s

/-- R171: the reply frame of the results, marked where the frame was ended by RESTART (R172). -/
def State.buildReply (s : State) (tag : Half) : Reply :=
  { bytes := replyBytes (s.unit.nodeAddress.setWidth 8) tag s.service.results, restart := s.service.frameEnded }

/-- R171: the reply put at the tail of the reply queue; the frame's own qualifier state and results are spent. -/
def State.queueReply (s : State) (tag : Half) : State :=
  s.onService (fun v => { v.openFrame with replies := v.replies ++ [s.buildReply tag] })

/-- R165, R168, R171: a service frame applied whole, and its reply queued. -/
def State.applyFrame (s : State) (tag : Half) (items : List Item) : State :=
  (((applyItems items (s.onService ServiceHandler.openFrame)).orphan items).queueReply tag).startPort .ret

/-- R164: a service frame taken with four replies standing is dropped and sets SVCDROP. One that is applied falls between the
work of two blocks on a return sweep and does not divide the raises of one (R165). -/
def State.takeFrame (s : State) (bytes : List Byte) : State :=
  if s.service.replies.length < Config.replyRoom then
    s.finishBlock.applyFrame (serviceTag bytes) (serviceItems bytes)
  else s.onService (fun v => { v with svcDrop := true })

/-- R5, R164, R165: the service handler takes the service frame at the head of the outbound lane and consumes it. With no such
frame to take there is no such event, and the state is left as it stands (log 2). -/
def State.serviceFrame (s : State) : State :=
  match s.outLane.next? with
  | none => s
  | some w =>
    if isServiceTo s.unit.nodeAddress w.bytes then
      ((s.onLane .outbound Lane.dropHead).takeFrame w.bytes).settle .outbound
    else s

/-- SERVICE_FRAME (R165). -/
def execServiceFrame (s : State) : Host.Outcome State Fault Refusal := .next s.serviceFrame

/-! ### The items as commands: each row of the table, taken as an item of a frame in application (log 1)

As a frame does, an item falls between the work of two blocks on a return sweep and does not divide the raises of one: a block
at work hands the raises that it owes first (R98, R118, R165). -/

/-- PAGE (R167). -/
def execPage (index : Half) (args : List Word) (s : State) : Host.Outcome State Fault Refusal :=
  .next (itemPage index args s.finishBlock)

/-- QUIET (R167). -/
def execQuiet (index : Half) (args : List Word) (s : State) : Host.Outcome State Fault Refusal :=
  .next (itemQuiet index args s.finishBlock)

/-- MAP (R15 to R17). -/
def execMap (index : Half) (args : List Word) (s : State) : Host.Outcome State Fault Refusal :=
  .next (itemMap index args s.finishBlock)

/-- ACTUATOR (R89). -/
def execActuator (index : Half) (args : List Word) (s : State) : Host.Outcome State Fault Refusal :=
  .next (itemActuator index args s.finishBlock)

/-- GROUP (R91). -/
def execGroup (index : Half) (args : List Word) (s : State) : Host.Outcome State Fault Refusal :=
  .next (itemGroup index args s.finishBlock)

/-- PAGE_GROUP (R56). -/
def execPageGroup (index : Half) (args : List Word) (s : State) : Host.Outcome State Fault Refusal :=
  .next (itemPageGroup index args s.finishBlock)

/-- PAGE_ACT (R57). -/
def execPageAct (index : Half) (args : List Word) (s : State) : Host.Outcome State Fault Refusal :=
  .next (itemPageAct index args s.finishBlock)

/-- SHAPE (R50). -/
def execShape (index : Half) (args : List Word) (s : State) : Host.Outcome State Fault Refusal :=
  .next (itemShape index args s.finishBlock)

/-- CAL (R97). -/
def execCal (index : Half) (args : List Word) (s : State) : Host.Outcome State Fault Refusal :=
  .next (itemCal index args s.finishBlock)

/-- LIMIT (R104). -/
def execLimit (index : Half) (args : List Word) (s : State) : Host.Outcome State Fault Refusal :=
  .next (itemLimit index args s.finishBlock)

/-- CRACK (R116). -/
def execCrack (index : Half) (args : List Word) (s : State) : Host.Outcome State Fault Refusal :=
  .next (itemCrack index args s.finishBlock)

/-- COINC (R127). -/
def execCoinc (index : Half) (args : List Word) (s : State) : Host.Outcome State Fault Refusal :=
  .next (itemCoinc index args s.finishBlock)

/-- BLOCK (R64, R65). -/
def execBlock (index : Half) (args : List Word) (s : State) : Host.Outcome State Fault Refusal :=
  .next (itemBlock index args s.finishBlock)

/-- CAPTURE_CFG (R149). -/
def execCaptureCfg (index : Half) (args : List Word) (s : State) : Host.Outcome State Fault Refusal :=
  .next (itemCaptureCfg index args s.finishBlock)

/-- MARKER (R151, R152). -/
def execMarker (index : Half) (args : List Word) (s : State) : Host.Outcome State Fault Refusal :=
  .next (itemMarker index args s.finishBlock)

/-- WATCH (R161). -/
def execWatch (index : Half) (args : List Word) (s : State) : Host.Outcome State Fault Refusal :=
  .next (itemWatch index args s.finishBlock)

/-- FLOOR (R138). -/
def execFloor (index : Half) (args : List Word) (s : State) : Host.Outcome State Fault Refusal :=
  .next (itemFloor index args s.finishBlock)

/-- COMMIT (R58). -/
def execCommit (index : Half) (args : List Word) (s : State) : Host.Outcome State Fault Refusal :=
  .next (itemCommit index args s.finishBlock)

/-- RELEASE (R76 to R78). -/
def execRelease (index : Half) (args : List Word) (s : State) : Host.Outcome State Fault Refusal :=
  .next (itemRelease index args s.finishBlock)

/-- HOLD (R79). -/
def execHold (index : Half) (args : List Word) (s : State) : Host.Outcome State Fault Refusal :=
  .next (itemHold index args s.finishBlock)

/-- UNLOAD (R80). -/
def execUnload (index : Half) (args : List Word) (s : State) : Host.Outcome State Fault Refusal :=
  .next (itemUnload index args s.finishBlock)

/-- DISENGAGE (R81). -/
def execDisengage (index : Half) (args : List Word) (s : State) : Host.Outcome State Fault Refusal :=
  .next (itemDisengage index args s.finishBlock)

/-- ACK (R140). -/
def execAck (index : Half) (args : List Word) (s : State) : Host.Outcome State Fault Refusal :=
  .next (itemAck index args s.finishBlock)

/-- RESET_SCHEDULE (R62). -/
def execResetSchedule (index : Half) (args : List Word) (s : State) : Host.Outcome State Fault Refusal :=
  .next (itemResetSchedule index args s.finishBlock)

/-- CAPTURE (R148). -/
def execCapture (index : Half) (args : List Word) (s : State) : Host.Outcome State Fault Refusal :=
  .next (itemCapture index args s.finishBlock)

/-- CLEAR_FLAGS (R170). -/
def execClearFlags (index : Half) (args : List Word) (s : State) : Host.Outcome State Fault Refusal :=
  .next (itemClearFlags index args s.finishBlock)

/-- RESTART (R172). -/
def execRestart (index : Half) (args : List Word) (s : State) : Host.Outcome State Fault Refusal :=
  .next (itemRestart index args s.finishBlock)

/-- READ (R169). -/
def execRead (index : Half) (args : List Word) (s : State) : Host.Outcome State Fault Refusal :=
  .next (itemRead index args s.finishBlock)

/-- READ_PENDING (R142). -/
def execReadPending (index : Half) (args : List Word) (s : State) : Host.Outcome State Fault Refusal :=
  .next (itemReadPending index args s.finishBlock)

/-- READ_CAPTURE (R150). -/
def execReadCapture (index : Half) (args : List Word) (s : State) : Host.Outcome State Fault Refusal :=
  .next (itemReadCapture index args s.finishBlock)

/-- READ_RESET_CAUSE (R173). -/
def execReadResetCause (index : Half) (args : List Word) (s : State) : Host.Outcome State Fault Refusal :=
  .next (itemReadResetCause index args s.finishBlock)

end Sys2Proof.Machine
end

