-- ==== Sys2Proof/Machine/Dispatch.lean ====
section
/-! DEFINITION. `exec`: one arm for each command, one direct call of its meaning. -/

namespace Sys2Proof.Machine

def exec (i : Instr) (s : State) : Host.Outcome State Fault Refusal :=
  match i with
  | .frameArrival lane bytes => Sys2Proof.Machine.execFrameArrival lane bytes s
  | .outboundSweep during => Sys2Proof.Machine.execOutboundSweep during s
  | .engageIntervalEnd g => Sys2Proof.Machine.execEngageIntervalEnd g s
  | .returnSweep through => Sys2Proof.Machine.execReturnSweep through s
  | .framePassThrough lane => Sys2Proof.Machine.execFramePassThrough lane s
  | .sweepWatchExpiry => Sys2Proof.Machine.execSweepWatchExpiry s
  | .standInExpiry => Sys2Proof.Machine.execStandInExpiry s
  | .markerPulseExpiry line => Sys2Proof.Machine.execMarkerPulseExpiry line s
  | .frameSent lane => Sys2Proof.Machine.execFrameSent lane s
  | .replySent => Sys2Proof.Machine.execReplySent s
  | .resetAssert => Sys2Proof.Machine.execResetAssert s
  | .resetRelease => Sys2Proof.Machine.execResetRelease s
  | .powerOn => Sys2Proof.Machine.execPowerOn s
  | .startupComplete straps => Sys2Proof.Machine.execStartupComplete straps s
  | .serviceFrame => Sys2Proof.Machine.execServiceFrame s
  | .page index args => Sys2Proof.Machine.execPage index args s
  | .quiet index args => Sys2Proof.Machine.execQuiet index args s
  | .map index args => Sys2Proof.Machine.execMap index args s
  | .actuator index args => Sys2Proof.Machine.execActuator index args s
  | .group index args => Sys2Proof.Machine.execGroup index args s
  | .pageGroup index args => Sys2Proof.Machine.execPageGroup index args s
  | .pageAct index args => Sys2Proof.Machine.execPageAct index args s
  | .shape index args => Sys2Proof.Machine.execShape index args s
  | .cal index args => Sys2Proof.Machine.execCal index args s
  | .limit index args => Sys2Proof.Machine.execLimit index args s
  | .crack index args => Sys2Proof.Machine.execCrack index args s
  | .coinc index args => Sys2Proof.Machine.execCoinc index args s
  | .block index args => Sys2Proof.Machine.execBlock index args s
  | .captureCfg index args => Sys2Proof.Machine.execCaptureCfg index args s
  | .marker index args => Sys2Proof.Machine.execMarker index args s
  | .watch index args => Sys2Proof.Machine.execWatch index args s
  | .floor index args => Sys2Proof.Machine.execFloor index args s
  | .commit index args => Sys2Proof.Machine.execCommit index args s
  | .release index args => Sys2Proof.Machine.execRelease index args s
  | .hold index args => Sys2Proof.Machine.execHold index args s
  | .unload index args => Sys2Proof.Machine.execUnload index args s
  | .disengage index args => Sys2Proof.Machine.execDisengage index args s
  | .ack index args => Sys2Proof.Machine.execAck index args s
  | .resetSchedule index args => Sys2Proof.Machine.execResetSchedule index args s
  | .capture index args => Sys2Proof.Machine.execCapture index args s
  | .clearFlags index args => Sys2Proof.Machine.execClearFlags index args s
  | .restart index args => Sys2Proof.Machine.execRestart index args s
  | .read index args => Sys2Proof.Machine.execRead index args s
  | .readPending index args => Sys2Proof.Machine.execReadPending index args s
  | .readCapture index args => Sys2Proof.Machine.execReadCapture index args s
  | .readResetCause index args => Sys2Proof.Machine.execReadResetCause index args s
  | .suppliesSteady => Sys2Proof.Machine.execSuppliesSteady s

end Sys2Proof.Machine
end

