-- ==== Sys2Proof/Safety.lean ====
section
/-! DEFINITION. What counts as a safe state of the part: the conditions that the spec says hold at every moment, and the answer
of a service command as the statements speak of it. -/

namespace Sys2Proof.Machine

open Sys2Proof

/-! ### Conditions that hold at every moment -/

/-- R13: the slot map stands in ascending order of slot number, a slot number carries at most one role, and a role is bound to
at most one slot number. -/
abbrev mapWf (map : List Binding) : Prop :=
  map.Pairwise (fun b c => b.slot.toNat < c.slot.toNat) ∧ (map.map (·.role)).Nodup

/-- R75: a group is in ENGAGING or RUN only while no entry with action HOLD or UNLOAD names it. -/
abbrev State.latchSafe (s : State) : Prop :=
  ∀ g : Group, s.groupState g = .engaging ∨ s.groupState g = .run → s.alarm.latches g = false

/-- R144: at most 32 records, each with a sequence number one more than the record before it, and the last of them one less
than the next sequence number (R147); a watermark of 1 to 32 and a watch list of at most 4 channels. -/
structure CaptureLog.Wf (c : CaptureLog) : Prop where
  room : c.queue.length ≤ 32
  rising : ∀ (i : Nat) (r q : CaptureRecord), c.queue[i]? = some r → c.queue[i + 1]? = some q → q.seq = r.seq + 1
  following : ∀ r : CaptureRecord, c.queue.getLast? = some r → c.nextSeq = r.seq + 1
  watermark : 1 ≤ c.watermark ∧ c.watermark ≤ 32
  watched : c.watchList.length ≤ 4 ∧ c.watchList.Nodup

/-- R1, R4: a lane holds at most four waiting frames, and its bad-frame count stops at 65,535. -/
abbrev Lane.bounded (l : Lane) : Prop := l.waiting.length ≤ 4 ∧ l.badFrames ≤ 65535

/-- R1, R4, R163: the bounds of the two lanes and of the reply queue; a reply in sending stands at its head. -/
abbrev State.bounded (s : State) : Prop :=
  s.outLane.bounded ∧ s.retLane.bounded ∧ s.service.replies.length ≤ 4
    ∧ (s.service.replySending = true → s.service.replies ≠ [])

/-- R131, R137: at most one entry for each source; the list holds the entries in presentation order (log 19). -/
abbrev AlarmTable.wf (t : AlarmTable) : Prop :=
  (t.entries.map (·.source)).Nodup ∧ t.entries.Pairwise (fun e f => e.outranks f = true)

/-- R72, R97: a lead names no lead and is not the group itself; a compensation channel names none and is not the channel
itself. -/
structure State.NoChains (s : State) : Prop where
  leads : ∀ g h : Group, s.lead g = some h → h ≠ g ∧ s.lead h = none
  compensations : ∀ (c d : Fin 256) (r : Calibration), (s.strain.entry c).cal = some r → r.comp = some d →
    d ≠ c ∧ ∀ q : Calibration, (s.strain.entry d).cal = some q → q.comp = none

/-- R74, R84, R90: outside ENGAGING the engage count is 0 and no report stands; in ENGAGING the count is below the engage
interval, which is at least 1. -/
abbrev State.engageSafe (s : State) : Prop :=
  ∀ g : Group, 1 ≤ (s.lock g).record.engageInterval ∧
    if s.groupState g = .engaging then (s.lock g).engageCount < (s.lock g).record.engageInterval
    else (s.lock g).engageCount = 0 ∧ (s.lock g).reportDue = false

/-- R25: the shaper keeps an output for an actuator exactly while its group is not OFF, and none for an unassigned one; where
it keeps none it keeps no hold value. -/
abbrev State.outputsFollow (s : State) : Prop :=
  ∀ a : Actuator,
    match (s.actuator a).group with
    | none => (s.output a).kept = none ∧ (s.output a).hold = none
    | some g =>
      if s.groupState g = .off then (s.output a).kept = none ∧ (s.output a).hold = none
      else (s.output a).kept.isSome = true

/-- R54 and 3.4 ("Complete pages"): the active page of a group that is not OFF holds an entry for each of the group's
actuators. -/
abbrev State.pagesSafe (s : State) : Prop :=
  ∀ g : Group, s.groupState g ≠ .off → s.complete g (s.pages.entry g).active = true

/-- R108, R109: a run toward more severe has a band more severe than the watch state, one toward less severe a milder one. -/
abbrev StrainChannel.runWf (ch : StrainChannel) : Prop :=
  match ch.run with
  | none => True
  | some (.moreSevere, b) => ch.watch.toCode < b.toCode
  | some (.lessSevere, b) => b.toCode < ch.watch.toCode

/-! ### Answers of service commands -/

/-- R166, R167: the state with a command answered: the qualifier state spent, and the command's result put behind the results
of the frame, unless the quiet mark was set and the result is OK. -/
def State.answered (s : State) (code : Byte) (index : Half) (result : ResultCode) (words : List Word) : State :=
  s.onService (fun v =>
    if v.quiet = true ∧ result = .ok then v.spent
    else v.spent.withResult { code := code, result := result, index := index, words := words })

/-- The item of a service frame (Figure 2-8) that a service command or a qualifier stands for, with its item code (Figure 11-1);
none for the commands that are no items. -/
def itemOf? : Instr → Option Item
  | .page index args => some { code := 0x01, index := index, args := args }
  | .quiet index args => some { code := 0x02, index := index, args := args }
  | .map index args => some { code := 0x10, index := index, args := args }
  | .actuator index args => some { code := 0x11, index := index, args := args }
  | .group index args => some { code := 0x12, index := index, args := args }
  | .pageGroup index args => some { code := 0x13, index := index, args := args }
  | .pageAct index args => some { code := 0x14, index := index, args := args }
  | .shape index args => some { code := 0x15, index := index, args := args }
  | .cal index args => some { code := 0x16, index := index, args := args }
  | .limit index args => some { code := 0x17, index := index, args := args }
  | .crack index args => some { code := 0x18, index := index, args := args }
  | .coinc index args => some { code := 0x19, index := index, args := args }
  | .block index args => some { code := 0x1A, index := index, args := args }
  | .captureCfg index args => some { code := 0x1B, index := index, args := args }
  | .marker index args => some { code := 0x1C, index := index, args := args }
  | .watch index args => some { code := 0x1D, index := index, args := args }
  | .floor index args => some { code := 0x1E, index := index, args := args }
  | .commit index args => some { code := 0x20, index := index, args := args }
  | .release index args => some { code := 0x21, index := index, args := args }
  | .hold index args => some { code := 0x22, index := index, args := args }
  | .unload index args => some { code := 0x23, index := index, args := args }
  | .disengage index args => some { code := 0x24, index := index, args := args }
  | .ack index args => some { code := 0x25, index := index, args := args }
  | .resetSchedule index args => some { code := 0x26, index := index, args := args }
  | .capture index args => some { code := 0x27, index := index, args := args }
  | .clearFlags index args => some { code := 0x28, index := index, args := args }
  | .restart index args => some { code := 0x2F, index := index, args := args }
  | .read index args => some { code := 0x30, index := index, args := args }
  | .readPending index args => some { code := 0x31, index := index, args := args }
  | .readCapture index args => some { code := 0x32, index := index, args := args }
  | .readResetCause index args => some { code := 0x33, index := index, args := args }
  | .frameArrival _ _ | .outboundSweep _ | .engageIntervalEnd _ | .returnSweep _ | .framePassThrough _
  | .sweepWatchExpiry | .standInExpiry | .markerPulseExpiry _ | .frameSent _ | .replySent | .resetAssert
  | .resetRelease | .powerOn | .startupComplete _ | .serviceFrame | .suppliesSteady => none

/-- The item code and the index field of a service command; none for the qualifiers and for the commands that are no items. -/
def commandItem? (c : Instr) : Option (Byte × Half) :=
  match itemOf? c with
  | none => none
  | some it => if it.isQualifier then none else some (it.code, it.index)

end Sys2Proof.Machine
end

