-- ==== Sys2Proof/Certificates/Slice0/Obligations.lean ====
section
/-! DEFINITION. The statements for the provers. Each cites the rule or the section of spec/ it formalises in OBLIGATIONS.json;
its docstring says which choice of the model it rests on, where it rests on one. -/

open Sys2Proof Sys2Proof.Machine

/-! ### The queue, reset, and the conditions that hold at every moment -/

/-- A step takes the command at the front of the queue and runs it on the state with the queue's rest. On an empty queue the
part idles: the model's choice (log 1). -/
def Obligations.StepTakesFrontCommand : Prop :=
  (∀ (c : Instr) (rest : List Instr) (s : State),
     s.pending = c :: rest → step s = exec c { s with pending := rest }) ∧
  (∀ s : State, s.pending = [] → step s = .next s)

/-- Every command completes, in every state, and no command adds a command to the queue or takes one out of it. That an event
which the rules say cannot come leaves the state as it stands is the model's choice (log 2), and so is the queue (log 1). -/
def Obligations.EveryCommandCompletes : Prop :=
  ∀ (c : Instr) (s : State), ∃ t : State, exec c s = .next t ∧ t.pending = s.pending

/-- What the spec says each block holds after reset. -/
def Obligations.ResetValues : Prop :=
  let s := State.reset
  (∀ l : LaneId, (s.lane l).bypass = true ∧ (s.lane l).badFrames = 0 ∧ (s.lane l).waiting = []
    ∧ (s.lane l).hand = none) ∧
  s.slotMap = [] ∧ s.unit.nodeAddress = 0 ∧
  (∀ a : Actuator, (s.output a).kept = none ∧ (s.output a).hold = none ∧ (s.output a).lastQuality = .none
    ∧ (s.actuator a).group = none ∧ (s.actuator a).floor = 0 ∧ (s.actuator a).level = 7
    ∧ (s.actuator a).seed = none ∧ (s.actuator a).armed = true) ∧
  (∀ g : Group, (s.shape g).theta = 0 ∧ (s.shape g).lastShaped = none ∧ (s.shape g).cycling = false
    ∧ (s.shape g).sumArmed = true ∧ s.groupState g = .off ∧ (s.lock g).engageCount = 0 ∧ (s.lock g).cause = none
    ∧ (s.lock g).record = { unloadRate := 100, engageInterval := 10, lead := none, sumLevel := 7, blockLevel := 7 }
    ∧ s.cycles.entry g = { total := 0, block := 0, schedule := [], pointer := 0 }
    ∧ (s.pages.entry g).active = 0 ∧ (s.pages.entry g).pendingPage = none ∧ (s.pages.entry g).overridden = false
    ∧ ∀ p : Fin 4, (s.page g p).step = 0 ∧ (s.page g p).sumLimit = 0
      ∧ ∀ a : Actuator, (s.page g p).entries.entry a = none) ∧
  (∀ (t : Fin 4) (i : Fin 256), (s.shapes.entry t).entry i = 0) ∧
  (∀ c : Fin 256, s.strain.entry c =
    { cal := none, limit := none, watch := .normal, debounce := 0, run := none, warnCount := 0, latest := none
      armed := true }) ∧
  (∀ k : Fin 64, s.crack.entry k =
    { record := none, condition := false, sensorFault := false, debounce := 0, accumulator := 0, armed := true }) ∧
  (∀ n : Fin 8, s.sets.entry n = { record := none, armed := true, lastCount := 0 }) ∧
  s.alarm = { entries := [], floor := 0, counter := 0 } ∧
  s.captures = { queue := [], nextSeq := 0, watchList := [], watermark := 32, lost := false } ∧
  (∀ l : Line, s.markers.entry l =
      { kind := .none, group := 0, width := 1, activeLow := false, timer := none }
    ∧ s.lineActive l = false ∧ s.pinHigh l = false) ∧
  s.watch =
    { settings := { interval := 20, action := .unload, level := 7, enable := false, period := 1000 }
      state := .disarmed, timer := none, lastController := 0, originating := false, standTimer := none
      lastOriginated := 0 } ∧
  s.service.replies = [] ∧ s.service.svcDrop = false ∧ s.service.restartPending = false

/-- The conditions that every step keeps hold after reset. -/
def Obligations.ResetMeetsConditions : Prop :=
  mapWf State.reset.slotMap ∧ State.reset.latchSafe ∧ State.reset.captures.Wf ∧ State.reset.bounded
    ∧ State.reset.alarm.wf ∧ State.reset.NoChains ∧ State.reset.engageSafe ∧ State.reset.outputsFollow
    ∧ State.reset.pagesSafe ∧ ∀ c : Fin 256, (State.reset.strain.entry c).runWf

/-- R13: every step keeps the slot map in ascending order, with no slot number and no role standing twice. -/
def Obligations.StepKeepsMapOrdered : Prop :=
  ∀ s t : State, mapWf s.slotMap → step s = .next t → mapWf t.slotMap

/-- R75: every step keeps each group that a HOLD or UNLOAD entry names out of ENGAGING and RUN. -/
def Obligations.StepKeepsLatches : Prop :=
  ∀ s t : State, s.latchSafe → step s = .next t → t.latchSafe

/-- R144: every step keeps the capture log within 32 records in unbroken sequence. -/
def Obligations.StepKeepsCaptureLog : Prop :=
  ∀ s t : State, s.captures.Wf → step s = .next t → t.captures.Wf

/-- R1, R4, R163: every step keeps the lanes and the reply queue within their room. -/
def Obligations.StepKeepsBounds : Prop :=
  ∀ s t : State, s.bounded → step s = .next t → t.bounded

/-- R131: every step keeps at most one alarm entry for each source. The list's order is the model's (log 19). -/
def Obligations.StepKeepsAlarmTable : Prop :=
  ∀ s t : State, s.alarm.wf → step s = .next t → t.alarm.wf

/-- R72, R97: every step keeps leads and compensation channels one level deep. -/
def Obligations.StepKeepsChainsShort : Prop :=
  ∀ s t : State, s.NoChains → step s = .next t → t.NoChains

/-- R74, R84: every step keeps the engage counts. Where the report that ends the interval stands is the model's (log 10). -/
def Obligations.StepKeepsEngageCounts : Prop :=
  ∀ s t : State, s.engageSafe → step s = .next t → t.engageSafe

/-- R96, R108, R109: every step keeps each run toward a band beyond the channel's watch state. -/
def Obligations.StepKeepsStrainRuns : Prop :=
  ∀ s t : State, (∀ c : Fin 256, (s.strain.entry c).runWf) → step s = .next t → ∀ c : Fin 256, (t.strain.entry c).runWf

/-- R25: every step keeps an output for exactly the actuators of groups that are not OFF. -/
def Obligations.StepKeepsOutputsWithGroups : Prop :=
  ∀ s t : State, s.outputsFollow → step s = .next t → t.outputsFollow

/-- R54: every step keeps the active page of every group that is not OFF complete. -/
def Obligations.StepKeepsActivePagesComplete : Prop :=
  ∀ s t : State, s.pagesSafe → step s = .next t → t.pagesSafe

/-! ### Frames -/

/-- Figures 2-7 and 2-8: a sweep and the items of a service frame, written as bytes and closed with the CRC over them,
are read back as they were, with every field of their headers; and the bytes of a sweep and of a reply, written out (R8, R24,
R171). Multi-byte fields go out least significant byte first. Which bit of the CRC register is bit 0 of the number carried is
presumed (log 5). -/
def Obligations.SweepBytesReadBack : Prop :=
  (∀ sw : Sweep, sw.slots.length ≤ 384 → readSweep (sweepBytes sw) = sw) ∧
  (let two := fun h : Half => [h.extractLsb' 0 8, h.extractLsb' 8 8]
   let four := fun w : Word => [w.extractLsb' 0 8, w.extractLsb' 8 8, w.extractLsb' 16 8, w.extractLsb' 24 8]
   let byte := fun n : Nat => BitVec.ofNat 8 n
   let closed := fun body : List Byte => body ++ four (crc32 body)
   let resultCode := fun r : ResultCode => match r with
     | .ok => (0 : Byte) | .unknown => 1 | .badIndex => 2 | .badValue => 3 | .state => 4 | .bound => 5 | .chain => 6
     | .pageActive => 7 | .pagePending => 8 | .commitBusy => 9 | .shapeInUse => 10 | .incomplete => 11 | .latched => 12
     | .noFeedback => 13 | .notPending => 14 | .noPage => 15 | .orphan => 16 | .empty => 17
   (∀ sw : Sweep, sweepBytes sw = closed
     ([0xA1] ++ two (BitVec.ofNat 16 (9 + 8 * sw.slots.length)) ++ [sw.origin, sw.governor] ++ two sw.number
       ++ two (BitVec.ofNat 16 sw.slots.length)
       ++ (sw.slots.map (fun sl => two sl.number ++ [sl.kind, sl.quality] ++ four sl.value)).flatten)) ∧
   (∀ (destination : Byte) (tag : Half) (items : List Item), items.length ≤ 64 →
     (∀ it ∈ items, it.args.length ≤ 12) →
     let body := (items.map (fun it =>
       [it.code, byte it.args.length] ++ two it.index ++ (it.args.map four).flatten)).flatten
     let frame := closed ([0xA2] ++ two (BitVec.ofNat 16 (7 + body.length)) ++ [destination] ++ two tag
       ++ [byte items.length] ++ body)
     frameKind frame = 0xA2 ∧ serviceDestination frame = destination ∧ serviceTag frame = tag ∧
       serviceItems frame = items ∧ (items ≠ [] → frameGood frame = true)) ∧
   (∀ (source : Byte) (tag : Half) (results : List ItemResult),
     let body := (results.map (fun r =>
       [r.code, resultCode r.result] ++ two r.index ++ [byte r.words.length] ++ (r.words.map four).flatten)).flatten
     replyBytes source tag results = closed
       ([0xA3] ++ two (BitVec.ofNat 16 (7 + body.length)) ++ [source] ++ two tag ++ [byte results.length] ++ body)))

/-- R2, R3: the frames that the part makes pass the checks of an arriving frame, and an arriving frame passes them exactly
where it has each of the things that R2 and R3 ask: its size, its declared length, the CRC, and by its kind the slot count and
the origin of a sweep, or a walk of items or results, none of more than 12 words, that ends exactly at the declared length.
The CRC itself: the register preset to all ones, each byte fed least significant bit first, the generator of R2, the content
complemented. That the coefficient of the register's highest power is bit 0 of the number carried is presumed (log 5). -/
def Obligations.BuiltFramesPassChecks : Prop :=
  (∀ sw : Sweep, sw.slots.length ≤ 384 → (sw.origin = 0 ∨ sw.origin = 1) → frameGood (sweepBytes sw) = true) ∧
  (∀ (source : Byte) (tag : Half) (results : List ItemResult), results.length ≤ 64 →
    (∀ r ∈ results, r.words.length ≤ 12) → frameGood (replyBytes source tag results) = true) ∧
  (∀ bytes : List Byte,
     let two := fun h : Half => [h.extractLsb' 0 8, h.extractLsb' 8 8]
     let four := fun w : Word => [w.extractLsb' 0 8, w.extractLsb' 8 8, w.extractLsb' 16 8, w.extractLsb' 24 8]
     let byte := fun i : Nat => bytes.getD i 0
     let declared := (byte 1).toNat + 256 * (byte 2).toNat
     let covered := bytes.take declared
     let slots := (byte 7).toNat + 256 * (byte 8).toNat
     let count := (byte 6).toNat
     frameGood bytes = true ↔
       (7 ≤ bytes.length ∧ bytes.length ≤ 4096 ∧ declared + 4 = bytes.length ∧
         bytes = covered ++ four (crc32 covered)) ∧
       (byte 0 = 0xA1 → slots ≤ 384 ∧ (byte 3 = 0 ∨ byte 3 = 1) ∧ declared = 9 + 8 * slots) ∧
       (byte 0 = 0xA2 → 1 ≤ count ∧ count ≤ 64 ∧ ∃ items : List Item, items.length = count ∧
         (∀ it ∈ items, it.args.length ≤ 12) ∧
         covered = bytes.take 7 ++ (items.map (fun it =>
           [it.code, BitVec.ofNat 8 it.args.length] ++ two it.index ++ (it.args.map four).flatten)).flatten) ∧
       (byte 0 = 0xA3 → count ≤ 64 ∧ ∃ results : List (Byte × Byte × Half × List Word), results.length = count ∧
         (∀ r ∈ results, r.2.2.2.length ≤ 12) ∧
         covered = bytes.take 7 ++ (results.map (fun r =>
           [r.1, r.2.1] ++ two r.2.2.1 ++ [BitVec.ofNat 8 r.2.2.2.length] ++ (r.2.2.2.map four).flatten)).flatten)) ∧
  (∀ bytes : List Byte,
     let bits := bytes.flatMap (fun b : Byte => (List.range 8).map (fun i => b.getLsbD i))
     let fed := fun (register : Word) (bit : Bool) =>
       if register.msb = bit then register <<< 1 else (register <<< 1) ^^^ 0x04C11DB7#32
     crc32 bytes = (~~~(bits.foldl fed 0xFFFFFFFF#32)).reverse)

/-- R1, R4, R19, R157: a frame that arrives at a lane in normal processing. That a controller sweep discarded for a full lane
is still reported is the model's reading (log 8); that a good frame joins the waiting frames also in a lane with nothing in
hand, and that a fifth is discarded there too, is the model's choice (log 13). -/
def Obligations.CheckedArrival : Prop :=
  ∀ (l : LaneId) (bytes : List Byte) (s : State), (s.lane l).bypass = false →
    let counted := fun x : Lane =>
      { x with badFrames := if x.badFrames < 65535 then x.badFrames + 1 else x.badFrames }
    let told :=
      if l = .outbound ∧ frameKind bytes = 0xA1 ∧ byteAt bytes 3 = 0 then
        s.onWatch (fun w =>
          { w with
            lastController := halfAt bytes 5
            timer := some w.settings.interval
            state := .running
            originating := if w.state = .expired then false else w.originating
            standTimer := if w.state = .expired then none else w.standTimer })
      else s
    exec (.frameArrival l bytes) s = .next
      (if frameGood bytes = false then s.onLane l counted
       else if (s.lane l).waiting.length < 4 then
         told.onLane l (fun x =>
           { x with waiting := x.waiting ++
               [{ bytes := bytes, bypassed := false
                  map := if l = .ret ∧ frameKind bytes = 0xA1 then s.slotMap else [] }] })
       else told.onLane l counted)

/-- R10, R7: a frame that arrives at a lane in bypass. -/
def Obligations.BypassArrival : Prop :=
  ∀ (l : LaneId) (bytes : List Byte) (s : State), (s.lane l).bypass = true →
    (4 ≤ (s.lane l).waiting.length → exec (.frameArrival l bytes) s = .next s) ∧
    (∀ sent : List Byte, (s.lane l).waiting.length < 4 → (s.lane l).hand = some (.sending sent) →
      exec (.frameArrival l bytes) s = .next (s.onLane l (fun x =>
        { x with waiting := x.waiting ++ [{ bytes := bytes, bypassed := true, map := [] }] }))) ∧
    ((s.lane l).waiting = [] → (s.lane l).hand = none → (l = .ret → s.service.replySending = false) →
      exec (.frameArrival l bytes) s = .next (s.onLane l (fun x => { x with hand := some (.sending bytes) }))) ∧
    ((s.lane l).waiting = [] → (s.lane l).hand = none → l = .ret → s.service.replySending = true →
      exec (.frameArrival l bytes) s = .next (s.onLane l (fun x => { x with hand := some (.ready bytes) })))

/-- R5, R8, R26 to R29: the outbound lane takes the sweep at its head, fixes the working states and which groups cycle, deals
with every group in order through stages 1 to 8 and with the unassigned actuators, and sends the sweep with its slots in their
places. The events of `during` fall at the five places of each group and after the last group (the places are the model's
choice, log 9; that a report which ends an engage interval is taken before the working states are fixed, log 10). R47: what
stage 7 writes and keeps. -/
def Obligations.OutboundSweepSent : Prop :=
  (∀ (s : State) (w : Waiting) (rest : List Waiting) (during : List (List MidEvent)), s.outLane.hand = none →
     s.outLane.waiting = w :: rest → w.bypassed = false → frameKind w.bytes = 0xA1 →
     let sw := readSweep w.bytes
     let taken := ({ s with outLane := { s.outLane with waiting := rest } } : State).takeSweep sw
     let order := (allGroups.map (fun g =>
       if s.lead g = none then g :: allGroups.filter (fun h => s.lead h = some g) else [])).flatten
     let deal := fun (x : Shaping) (gi : Group × Nat) =>
       let place := fun (k : Nat) => during.getD (5 * gi.2 + k) []
       let paged := ((x.meet (place 0)).stage1 gi.1).stage2 gi.1 (place 1)
       let worked := (paged.meet (place 2)).stage3to6 gi.1
       let written := (worked.1.meet (place 3)).stage7 gi.1 worked.2
       ((written.meet (place 4)).stage8 gi.1).recordCycling gi.1
     let dealt := (order.zipIdx.foldl deal taken).meet (during.drop (5 * order.length)).flatten
     let y := (allActuators.filter (fun a => (s.actuator a).group = none)).foldl Shaping.writeNone dealt
     let t : State := { y.state with
       outLane := { s.outLane with
         waiting := rest
         hand := some (.sending (sweepBytes
           { sw with governor := s.unit.nodeAddress.setWidth 8, slots := y.slots })) } }
     exec (.outboundSweep during) s = .next t ∧
     (∀ g : Group, taken.working.entry g =
       (if s.groupState g = .engaging ∧ (s.lock g).reportDue = true then .run else s.groupState g)) ∧
     (∀ g : Group, taken.cycling.entry g = true ↔
       taken.working.entry g = .run ∧ taken.working.entry ((s.lead g).getD g) = .run ∧
         1 ≤ (s.activePage ((s.lead g).getD g)).step) ∧
     taken.received = sw.slots ∧ taken.slots = sw.slots ∧ taken.number = sw.number ∧
     y.slots.length = sw.slots.length ∧
     (∀ (i : Nat) (a b : Slot), sw.slots[i]? = some a → y.slots[i]? = some b →
       b.number = a.number ∧ (roleAt? s.slotMap a.number = none → b = a)) ∧
     t.shaper.lastTaken = halfAt w.bytes 5 ∧
     (∀ g : Group, s.lead g = none → s.groupState g = .off ∨ s.groupState g = .unload ∨ s.groupState g = .rest →
       (t.shape g).lastShaped = some (s.groupState g)) ∧
     t.pending = s.pending ∧ t.unit = s.unit ∧ t.slotMap = s.slotMap ∧ t.shapes = s.shapes ∧
     (during = [] → t.retLane = s.retLane ∧ t.strain = s.strain ∧ t.crack = s.crack ∧ t.sets = s.sets ∧
       t.watch = s.watch ∧ t.service = s.service)) ∧
  (∀ (x : Shaping) (g : Group) (outs : List Output), x.working.entry g ≠ .off → mapWf x.state.slotMap →
     x.slots.length = x.received.length → (outs.map (fun o => o.act)).Nodup →
     let y := x.stage7 g outs
     (∀ o ∈ outs,
       y.state.output o.act = { x.state.output o.act with kept := some o.value, lastQuality := o.quality } ∧
       ∀ (i : Nat) (sl : Slot), x.setpoint? o.act = some (i, sl) →
         y.slots[i]? = some { number := sl.number, kind := 1, quality := BitVec.ofNat 8 o.quality.toCode
                              value := intWord o.value }) ∧
     (∀ a : Actuator, (∀ o ∈ outs, o.act ≠ a) → y.state.output a = x.state.output a) ∧
     (∀ i : Nat, (∀ o ∈ outs, ∀ sl : Slot, x.setpoint? o.act ≠ some (i, sl)) → y.slots[i]? = x.slots[i]?) ∧
     y.state.shape g = { x.state.shape g with lastShaped := some (x.working.entry g) })

/-- R34: with every group OFF and no lead that names a lead (R72), an outbound sweep leaves with each present SETPOINT slot
written NONE and 0, and the shaper keeps no output, whatever events fall while it is being shaped (the places where they fall
are the model's choice, log 9). -/
def Obligations.OffSweepWritesNone : Prop :=
  ∀ (s : State) (w : Waiting) (rest : List Waiting) (during : List (List MidEvent)), s.outLane.hand = none →
    s.outLane.waiting = w :: rest → w.bypassed = false → frameKind w.bytes = 0xA1 →
    (∀ g : Group, s.groupState g = .off) → (∀ g h : Group, s.lead g = some h → s.lead h = none) →
    ∃ (t : State) (slots : List Slot), exec (.outboundSweep during) s = .next t ∧
      t.outLane.hand = some (.sending (sweepBytes
        { readSweep w.bytes with governor := s.unit.nodeAddress.setWidth 8, slots := slots })) ∧
      (∀ (a : Actuator) (i : Nat) (sl : Slot),
        present? s.crack s.slotMap (readSweep w.bytes).slots (.setpoint a) = some (i, sl) →
        slots[i]? = some { number := sl.number, kind := 1, quality := 0, value := 0 }) ∧
      (∀ a : Actuator, (t.output a).kept = none ∧ (t.output a).lastQuality = .none) ∧
      (∀ g : Group, t.groupState g = .off ∧ (t.shape g).lastShaped = some .off ∧ (t.shape g).theta = (s.shape g).theta)

/-- R6, R8, R20, R132: the return lane takes the sweep at its head through the feedback intake, the strain block, the crack
watch and the status writer, each working on what the one before it left, and sends it with its slots in their places. It may
stop after a block, or between two raises of a block (that these are the places where it stops is the model's choice, log 9).
A sweep that stands with the status writer next goes on to be written and sent; and `finishBlock` hands over the raises that
the block at work still owes. -/
def Obligations.ReturnSweepSent : Prop :=
  (∀ (s : State) (w : Waiting) (rest : List Waiting), s.retLane.hand = none → s.retLane.waiting = w :: rest →
     w.bypassed = false → frameKind w.bytes = 0xA1 →
     let sw := readSweep w.bytes
     let fed := s.feedbackIntake w.map sw
     let judged := fed.strainBlock w.map sw
     let watched := judged.1.crackWatch w.map judged.2
     let out := watched.statusWriter w.map judged.2
     let holding := fun (h : Hand) => { s.retLane with waiting := rest, hand := some h }
     (s.service.replySending = false → exec (.returnSweep ⟨.statusWriter, none⟩) s =
       .next { watched with retLane := holding (.sending (sweepBytes out)) }) ∧
     (s.service.replySending = true → exec (.returnSweep ⟨.statusWriter, none⟩) s =
       .next { watched with retLane := holding (.ready (sweepBytes out)) }) ∧
     exec (.returnSweep ⟨.feedbackIntake, none⟩) s =
       .next { fed with retLane := holding (.processing sw w.map .strainBlock []) } ∧
     exec (.returnSweep ⟨.strainBlock, none⟩) s =
       .next { judged.1 with retLane := holding (.processing judged.2 w.map .crackWatch []) } ∧
     exec (.returnSweep ⟨.crackWatch, none⟩) s =
       .next { watched with retLane := holding (.processing judged.2 w.map .statusWriter []) } ∧
     out = { sw with slots := out.slots } ∧ out.slots.length = sw.slots.length ∧
     (∀ (i : Nat) (a b : Slot), sw.slots[i]? = some a → out.slots[i]? = some b →
       b.number = a.number ∧ (roleAt? w.map a.number = none → b = a)) ∧
     watched.pending = s.pending ∧ watched.unit = s.unit ∧ watched.outLane = s.outLane ∧ watched.slotMap = s.slotMap ∧
     watched.shaper = s.shaper ∧ watched.pages = s.pages ∧ watched.shapes = s.shapes ∧ watched.cycles = s.cycles ∧
     watched.watch = s.watch ∧ watched.service = s.service) ∧
  (∀ (s : State) (sw : Sweep) (map : List Binding) (next : ReturnBlock) (owed : List Raise),
     s.retLane.hand = some (.processing sw map next owed) →
     let rd : Reading := { map := map, slots := sw.slots }
     let done := s.raisedAll owed
     let holding := fun (h : Hand) => { s.retLane with hand := some h }
     (∀ (b : ReturnBlock) (n : Nat), blockPlace next = blockPlace b + 1 → exec (.returnSweep ⟨b, some n⟩) s =
       .next { s.raisedAll (owed.take n) with retLane := holding (.processing sw map next (owed.drop n)) }) ∧
     (next = .feedbackIntake → exec (.returnSweep ⟨.feedbackIntake, some 0⟩) s =
       .next { done.feedbackNoted rd with
         retLane := holding (.processing sw map .strainBlock (rd.driveRaises done sw.number)) }) ∧
     (next = .strainBlock → exec (.returnSweep ⟨.strainBlock, some 0⟩) s =
       .next { done.strainJudged rd with
         retLane := holding (.processing { sw with slots := rd.conditionedSlots done } map .crackWatch
           (rd.strainRaises done sw.number)) }) ∧
     (next = .crackWatch → exec (.returnSweep ⟨.crackWatch, some 0⟩) s =
       .next { done.crackEvaluated rd with
         retLane := holding (.processing sw map .statusWriter (rd.watchRaises done sw.number)) }) ∧
     (∀ raises : Option Nat, next = .statusWriter → exec (.returnSweep ⟨.statusWriter, raises⟩) s =
       .next { done with
         retLane := holding (if s.service.replySending = true then .ready (sweepBytes (done.statusWriter map sw))
           else .sending (sweepBytes (done.statusWriter map sw))) })) ∧
  (∀ s : State, s.finishBlock = match s.retLane.hand with
     | some (.processing sw map next owed) =>
       { s.raisedAll owed with retLane := { s.retLane with hand := some (.processing sw map next []) } }
     | _ => s)

/-- R5, R6, R8: a frame that a lane passes through leaves with its bytes as received, and nothing else changes. -/
def Obligations.PassThroughSendsUnchanged : Prop :=
  ∀ (l : LaneId) (s : State) (w : Waiting) (rest : List Waiting), (s.lane l).hand = none →
    (s.lane l).waiting = w :: rest → w.bypassed = false → frameKind w.bytes ≠ 0xA1 →
    (l = .outbound → ¬(frameKind w.bytes = 0xA2 ∧ byteAt w.bytes 3 = s.unit.nodeAddress.setWidth 8)) →
    (l = .ret → s.service.replySending = false) →
    exec (.framePassThrough l) s =
      .next (s.onLane l (fun x => { x with waiting := rest, hand := some (.sending w.bytes) }))

/-- R7, R10: when the sending of a lane's frame ends, the port is free; a frame that arrived in bypass goes out at once, and
otherwise RET-OUT goes on to the head reply. That a checked frame which only waits to be passed through is not yet ready, and
the head reply goes before it, is the model's choice (log 27). -/
def Obligations.FrameSentFreesPort : Prop :=
  (∀ (s : State) (b : List Byte), s.outLane.hand = some (.sending b) →
    (∀ w : Waiting, s.outLane.waiting.head? = some w → w.bypassed = false) →
    exec (.frameSent .outbound) s = .next { s with outLane := { s.outLane with hand := none } }) ∧
  (∀ (s : State) (b : List Byte), s.retLane.hand = some (.sending b) → s.service.replySending = false →
    (∀ w : Waiting, s.retLane.waiting.head? = some w → w.bypassed = false) →
    exec (.frameSent .ret) s = .next
      { s with
        retLane := { s.retLane with hand := none }
        service := { s.service with replySending := !s.service.replies.isEmpty } }) ∧
  (∀ (l : LaneId) (s : State) (b : List Byte) (w : Waiting) (rest : List Waiting),
    (s.lane l).hand = some (.sending b) → (l = .ret → s.service.replySending = false) →
    (s.lane l).waiting = w :: rest → w.bypassed = true →
    exec (.frameSent l) s =
      .next (s.onLane l (fun x => { x with waiting := rest, hand := some (.sending w.bytes) })))

/-- R7, R171, R172: at the end of its sending the head reply leaves the queue; a ready return-lane frame goes first, then the
next reply. If the reply carried a pending RESTART the part restarts. That start-up then needs the line released and the
supplies steady (log 11) and that RET-OUT begins nothing else before the restart (log 14) are the model's readings. That a
checked frame which only waits on the return lane to be passed through is not yet ready, so that the next reply goes before
it, is the model's choice (log 27). -/
def Obligations.ReplySentLeavesQueue : Prop :=
  ∀ (s : State) (r : Reply) (rest : List Reply), s.service.replySending = true → s.service.replies = r :: rest →
    (∀ b : List Byte, s.retLane.hand ≠ some (.sending b)) →
    let kept := fun l : Lane =>
      { Lane.atReset with hand := match l.hand with
          | some (.sending b) => some (.sending b)
          | _ => none }
    exec .replySent s = .next
      (if r.restart = true ∧ s.service.restartPending = true then
        { State.reset with
          pending := s.pending
          unit := { s.unit with
            nodeAddress := 0, causeService := true, startup := !s.unit.lineHeld && s.unit.suppliesSteady }
          outLane := kept s.outLane
          retLane := kept s.retLane }
      else
        match s.retLane.hand with
        | some (.ready b) =>
          { s with
            retLane := { s.retLane with hand := some (.sending b) }
            service := { s.service with replies := rest, replySending := false } }
        | _ => { s with service := { s.service with replies := rest, replySending := !rest.isEmpty } })

/-! ### Reset -/

/-- R9: an assertion of the reset line, and power-on, give every block its reset values; a frame or a reply in sending is sent
to its end, and every other one is discarded. That the reply kept in sending loses its RESTART mark is the model's reading of
R172 (log 21). R9, R11: start-up begins when the line is released and the supplies are steady (that both are needed is the
model's, log 11); at its completion the strap number becomes the node address and the lanes leave bypass unless it is 0. -/
def Obligations.ResetAndStartup : Prop :=
  (∀ s : State,
     let kept := fun l : Lane =>
       { Lane.atReset with hand := match l.hand with
           | some (.sending b) => some (.sending b)
           | _ => none }
     let left : State :=
       { State.reset with
         pending := s.pending
         outLane := kept s.outLane
         retLane := kept s.retLane
         service := { ServiceHandler.atReset with
           replies := if s.service.replySending = true then
               (s.service.replies.take 1).map (fun r => { r with restart := false }) else []
           replySending := s.service.replySending && !s.service.replies.isEmpty } }
     (s.unit.lineHeld = false → exec .resetAssert s = .next
       { left with unit := { s.unit with lineHeld := true, startup := false, nodeAddress := 0, causeLine := true } }) ∧
     exec .powerOn s = .next
       { left with unit := { s.unit with
           suppliesSteady := false, startup := false, nodeAddress := 0, causePower := true, causeLine := false
           causeService := false } }) ∧
  (∀ s : State,
     (s.unit.lineHeld = true → exec .resetRelease s =
       .next { s with unit := { s.unit with lineHeld := false, startup := s.unit.suppliesSteady } }) ∧
     (s.unit.suppliesSteady = false → exec .suppliesSteady s =
       .next { s with unit := { s.unit with suppliesSteady := true, startup := !s.unit.lineHeld } }) ∧
     (∀ straps : BitVec 6, s.unit.startup = true → straps ≠ 0 → exec (.startupComplete straps) s =
       .next { s with
         unit := { s.unit with startup := false, nodeAddress := straps }
         outLane := { s.outLane with bypass := false }
         retLane := { s.retLane with bypass := false } }) ∧
     (s.unit.startup = true → exec (.startupComplete 0) s =
       .next { s with unit := { s.unit with startup := false, nodeAddress := 0 } }))

/-- R173: the three flags of the reset cause record, and the command that returns and clears them, taken once a return-lane
block has handed over the raises it owes (R165; that they stand owed is the model's choice, log 9). That a bad index comes
before argument words is the model's choice too (log 30). -/
def Obligations.ResetCauseRecord : Prop :=
  (∀ s t : State, exec .powerOn s = .next t →
    t.unit.causePower = true ∧ t.unit.causeLine = false ∧ t.unit.causeService = false) ∧
  (∀ s t : State, s.unit.lineHeld = false → exec .resetAssert s = .next t →
    t.unit.causeLine = true ∧ t.unit.causePower = s.unit.causePower ∧ t.unit.causeService = s.unit.causeService) ∧
  (∀ (s t : State) (r : Reply) (rest : List Reply), s.service.replySending = true → s.service.replies = r :: rest →
    r.restart = true → s.service.restartPending = true → exec .replySent s = .next t →
    t.unit.causeService = true ∧ t.unit.causeLine = s.unit.causeLine ∧ t.unit.causePower = s.unit.causePower) ∧
  (∀ (before : State) (index : Half) (args : List Word),
    let s := before.finishBlock
    index ≠ 0 →
    exec (.readResetCause index args) before = .next (s.answered 0x33 index .badIndex [])) ∧
  (∀ (before : State) (args : List Word),
    let s := before.finishBlock
    args ≠ [] →
    exec (.readResetCause 0 args) before = .next (s.answered 0x33 0 .badValue [])) ∧
  (∀ before : State,
    let s := before.finishBlock
    ∃ w : Word,
    w.getLsbD 0 = s.unit.causePower ∧ w.getLsbD 1 = s.unit.causeLine ∧ w.getLsbD 2 = s.unit.causeService ∧
    (∀ i : Nat, 3 ≤ i → w.getLsbD i = false) ∧
    exec (.readResetCause 0 []) before = .next
      ({ s with unit := { s.unit with causePower := false, causeLine := false, causeService := false } }.answered
        0x33 0 .ok [w]))

/-! ### Shaping -/

/-- R30: the phase advance and the crossings of a group that is its own phase source. R31: a group that names a lead keeps its
own phase, and has the lead's crossings of this sweep while it cycles and none otherwise. -/
def Obligations.PhaseAdvances : Prop :=
  (∀ (x : Shaping) (g : Group), x.state.lead g = none → (x.state.activePage g).step ≤ 16384 →
    let theta := ((x.state.shape g).theta).toNat
    let step := (x.state.activePage g).step
    (x.cycling.entry g = false → x.stage1 g = x) ∧
    (x.cycling.entry g = true →
      (((x.stage1 g).state.shape g).theta).toNat = (if 65536 ≤ theta + step then theta + step - 65536 else theta + step) ∧
      (((x.stage1 g).crossings.entry g).valley = true ↔ 65536 ≤ theta + step) ∧
      (((x.stage1 g).crossings.entry g).peak = true ↔ theta < 32768 ∧ 32768 ≤ theta + step) ∧
      ¬(((x.stage1 g).crossings.entry g).valley = true ∧ ((x.stage1 g).crossings.entry g).peak = true) ∧
      ∀ h : Group, h ≠ g →
        (x.stage1 g).state.shape h = x.state.shape h ∧ (x.stage1 g).crossings.entry h = x.crossings.entry h)) ∧
  (∀ (x : Shaping) (g lead : Group), x.state.lead g = some lead →
    let y := x.stage1 g
    y = { x with crossings := y.crossings } ∧
    y.crossings.entry g = (if x.cycling.entry g = true then x.crossings.entry lead else x.crossings.entry g) ∧
    ∀ h : Group, h ≠ g → y.crossings.entry h = x.crossings.entry h) ∧
  (∀ (s : State) (sw : Sweep) (g : Group), (s.takeSweep sw).crossings.entry g = { valley := false, peak := false })

/-- R38: the waveform value by its five steps: the entry phase, the table position and the fraction, the next position with
entry 0 after entry 255, the shape value with its floor toward minus infinity, and the mean plus the nearest integer to
A·s / 32,767, of which no value is a true half. The shape value lies between the two entries it is taken from. With table
entries within their range (R49) the waveform value lies within the amplitude of the mean, and with the mean and the amplitude
within theirs, within 600,000. -/
def Obligations.WaveformWithinAmplitude : Prop :=
  ∀ (table : Vector Int 256) (e : PageEntry) (theta : Half),
    let shape := fun n : Nat => table.entry (Fin.ofNat 256 n)
    let sum := theta.toNat + e.offset.toNat
    let phi := if 65536 ≤ sum then sum - 65536 else sum
    let i := phi / 256
    let f := phi - 256 * i
    let j := if i = 255 then 0 else i + 1
    let s := shape i + Int.fdiv ((shape j - shape i) * f) 256
    let w := waveform table e theta
    2 * (e.amplitude * s - 32767 * (w - e.mean)).natAbs < 32767 ∧
    (∀ n : Int, 2 * (e.amplitude * s) ≠ 32767 * (2 * n + 1)) ∧
    min (shape i) (shape j) ≤ s ∧ s ≤ max (shape i) (shape j) ∧
    ((∀ n : Fin 256, -32767 ≤ table.entry n ∧ table.entry n ≤ 32767) →
      -32767 ≤ s ∧ s ≤ 32767 ∧ e.mean - e.amplitude ≤ w ∧ w ≤ e.mean + e.amplitude ∧
      (e.mean.natAbs ≤ 400000 → e.amplitude ≤ 200000 → w.natAbs ≤ 600000))

/-- R42 to R44: stages 4 and 5 in RUN and HOLD: the target brought into the envelope, the output between the previous output
and that target and no further from the previous one than the slew limit, and the quality that follows. R35 to R41: the target
and the output of an actuator that keeps an output, by the working state of its group: the previous output in ENGAGING, the
command or the waveform in RUN, the hold value in HOLD, the ramp to the floor in UNLOAD, the floor in REST. -/
def Obligations.EnvelopeAndSlew : Prop :=
  (∀ (e : PageEntry) (prev target : Int) (held : Bool), e.fmin ≤ e.fmax →
     let t := max e.fmin (min e.fmax target)
     let o := (throughEnvelope e prev target held).1
     let q := (throughEnvelope e prev target held).2
     (o - prev).natAbs ≤ e.slew ∧
     min prev t ≤ o ∧ o ≤ max prev t ∧
     ((t - prev).natAbs ≤ e.slew → o = t) ∧
     (e.slew < (t - prev).natAbs → (o - prev).natAbs = e.slew) ∧
     (e.fmin ≤ prev ∧ prev ≤ e.fmax → e.fmin ≤ o ∧ o ≤ e.fmax) ∧
     q = (if t ≠ target ∨ o ≠ t then .limited else if held = true then .held else .good)) ∧
  (∀ (x : Shaping) (g : Group) (a : Actuator) (prev : Int), (x.state.output a).kept = some prev →
     let floor := (x.state.actuator a).floor
     let rate := (x.state.lock g).record.unloadRate
     x.candidate g .engaging a = (prev, .good) ∧
     x.candidate g .rest a = (floor, .good) ∧
     ((floor - prev).natAbs ≤ rate → x.candidate g .unload a = (floor, .good)) ∧
     (rate < (floor - prev).natAbs →
       x.candidate g .unload a = (if prev < floor then prev + rate else prev - rate, .limited)) ∧
     (∀ e : PageEntry, (x.state.activePage g).entries.entry a = some e →
       (∀ h : Int, (x.state.output a).hold = some h → x.candidate g .hold a = throughEnvelope e prev h false) ∧
       (e.mode = .cyclic → x.candidate g .run a = throughEnvelope e prev
         (waveform (x.state.shapes.entry e.shape) e (x.state.shape ((x.state.lead g).getD g)).theta) false) ∧
       (e.mode = .direct → x.setpoint? a = none → x.candidate g .run a = throughEnvelope e prev prev true) ∧
       (∀ (i : Nat) (sl : Slot), e.mode = .direct → x.setpoint? a = some (i, sl) →
         x.candidate g .run a = (if qualityOf sl.quality = .good then throughEnvelope e prev sl.value.toInt false
           else throughEnvelope e prev prev true))))

/-- R45, R46: stage 6 leaves the sum of a group's outputs within the group limit, or the group trips and is worked on in
UNLOAD; the three cases, with the raise of a trip (that a trip whose source is not armed raises nothing is the model's choice,
log 28), and the source armed again at every other sweep. R39: the hold values as stage 3 leaves them; that a
group moved to HOLD by a boundary in its first sweep after a RELEASE from HOLD keeps its old ones (R39) against the words of
R68 is the model's choice (log 29). -/
def Obligations.SumKeptWithinLimit : Prop :=
  (∀ (x : Shaping) (g : Group),
     x.working.entry g = .engaging ∨ x.working.entry g = .run ∨ x.working.entry g = .hold →
     (sumOf (x.stage3to6 g).2).natAbs ≤ (x.state.activePage g).sumLimit ∨
       ((x.stage3to6 g).1.working.entry g = .unload ∧
         ((x.stage3to6 g).1.state.shape g).sumArmed = false ∧
         (x.previousSum g).natAbs > (x.state.activePage g).sumLimit)) ∧
  (∀ (x : Shaping) (g : Group),
     let st := x.working.entry g
     let members := allActuators.filter (fun a => (x.state.actuator a).group = some g)
     let outputs := fun (y : Shaping) (st : GroupState) =>
       members.map (fun a => ({ act := a, value := (y.candidate g st a).1, quality := (y.candidate g st a).2 } : Output))
     let armed := fun (s : State) (b : Bool) => s.onShape g (fun z => { z with sumArmed := b })
     let limit := (x.state.activePage g).sumLimit
     let held : State := x.state.onOutputs (fun a o =>
       if (x.state.actuator a).group = some g ∧ (x.state.shape g).lastShaped ≠ some .hold then { o with hold := o.kept }
       else o)
     let y : Shaping := if st = .hold then { x with state := held } else x
     (st = .off → x.stage3to6 g = ({ x with state := armed x.state true }, [])) ∧
     (st = .unload ∨ st = .rest → x.stage3to6 g = ({ x with state := armed x.state true }, outputs x st)) ∧
     (st = .engaging ∨ st = .run ∨ st = .hold →
       x.stage3to6 g =
         if (sumOf (outputs y st)).natAbs ≤ limit then ({ y with state := armed y.state true }, outputs y st)
         else if (x.previousSum g).natAbs ≤ limit then
           ({ y with state := armed y.state true },
            members.map (fun a => { act := a, value := x.state.previous a, quality := .limited }))
         else
           let s := if (x.state.shape g).sumArmed = true then
               y.state.raised { source := .groupSum g, level := (x.state.lock g).record.sumLevel, action := .unload
                                mask := BitVec.twoPow 6 g.val, sweep := x.number, capture := true, handed := .sum }
             else y.state
           let z : Shaping := { y with state := armed s false, working := x.working.alter g (fun _ => .unload) }
           (z, outputs z .unload)))

/-- R61: a cycle is counted exactly at a valley crossing of a cycling group that names no lead, and a block boundary follows
where the counting has made the block count equal to the current entry's target (log 24). It is counted for the group and for
each cycling group that names it as lead, and for no other; a count that stands at its greatest value stays there (R60). R59:
a pending page is swapped at a valley crossing of a cycling group and while the group is not cycling, and at no other time;
where it is not complete it is dropped. R32, R153: the turning points told to the marker lines. That the events of `mid` fall
at a boundary between its end action and its capture, and none between the counting and the boundary, is the model's choice
(log 9). -/
def Obligations.CyclesCountedAndPagesSwapped : Prop :=
  (∀ (x : Shaping) (g h : Group),
     let c := x.state.cycles.entry h
     (h = g ∨ (x.state.lead h = some g ∧ x.cycling.entry h = true) →
       (x.countCycle g).state.cycles.entry h = { c with
         total := if c.total < 4294967295 then c.total + 1 else c.total
         block := if c.block < 16777215 then c.block + 1 else c.block }) ∧
     (¬(h = g ∨ (x.state.lead h = some g ∧ x.cycling.entry h = true)) →
       (x.countCycle g).state.cycles.entry h = c)) ∧
  (∀ (x : Shaping) (g : Group),
     let y := x.state.pages.entry g
     let t := (x.swapPage g).state
     (∀ h : Group, h ≠ g → t.pages.entry h = x.state.pages.entry h) ∧
     (x.cycling.entry g = true ∧ (x.crossings.entry g).valley = false → t = x.state) ∧
     (x.cycling.entry g = false ∨ (x.crossings.entry g).valley = true →
       t.pages.entry g = { y with
         pendingPage := none
         active := match y.pendingPage with
           | none => y.active
           | some p => if x.state.complete g p = true then p else y.active })) ∧
  (∀ (x : Shaping) (g : Group) (mid : List MidEvent),
     let valley := x.state.lead g = none ∧ x.cycling.entry g = true ∧ (x.crossings.entry g).valley = true
     let y := x.countCycle g
     let c := y.state.cycles.entry g
     let u := x.sequence g mid
     x.stage2 g mid = (u.swapPage g).tellTurning g ∧
     (¬valley → u = x.meet mid) ∧
     (valley → ∀ e : BlockEntry, c.schedule[c.pointer]? = some e → c.block = e.target →
       u = ((y.endBlock g e).meet mid).tellBoundary g) ∧
     (valley → (∀ e : BlockEntry, c.schedule[c.pointer]? = some e → c.block ≠ e.target) → u = y.meet mid) ∧
     (∀ l : Line,
       let m := x.state.markers.entry l
       (x.tellTurning g).state.markers.entry l =
         if x.cycling.entry g = true ∧ m.group = g.val + 1 ∧
             ((m.kind = .valley ∧ (x.crossings.entry g).valley = true) ∨
              (m.kind = .peak ∧ (x.crossings.entry g).peak = true)) then { m with timer := some m.width } else m))

/-- R67 to R70: a block boundary: the block counts of the set become 0, the lead's pointer moves on, the pending pages are
discarded with COMMIT-OVERRIDDEN set, and the new entry's page is adopted where it is complete; then the end action, with the
raise of the lead's block-stop source and the working states it moves, then the BLOCK capture, and the BLOCK lines of the
set. -/
def Obligations.BlockBoundary : Prop :=
  ∀ (x : Shaping) (lead : Group) (ending fresh : BlockEntry),
    let inSet := fun h : Group => h = lead ∨ x.state.lead h = some lead
    let c := x.state.cycles.entry lead
    let place := if c.pointer + 1 < c.schedule.length then c.pointer + 1 else 0
    c.schedule[place]? = some fresh →
    let u := x.endBlock lead ending
    let t := (x.boundary lead ending).state
    (∀ h : Group, t.cycles.entry h = { x.state.cycles.entry h with
        block := if inSet h then 0 else (x.state.cycles.entry h).block
        pointer := if h = lead then place else (x.state.cycles.entry h).pointer }) ∧
    (∀ h : Group, inSet h →
      (t.pages.entry h).pendingPage = none ∧
      (t.pages.entry h).overridden = ((x.state.pages.entry h).overridden || (x.state.pages.entry h).pendingPage.isSome) ∧
      (t.pages.entry h).active =
        (if x.state.complete h fresh.page = true then fresh.page else (x.state.pages.entry h).active)) ∧
    (∀ h : Group, ¬inSet h → t.pages.entry h = x.state.pages.entry h) ∧
    (let adopted : State := { x.state with cycles := t.cycles, pages := t.pages }
     let what : Option (Action × CauseKind) :=
       if ∃ h : Group, inSet h ∧ x.state.complete h fresh.page = false then some (.hold, .incomplete)
       else match ending.endAction with
         | .cont => none
         | .inspect => some (.hold, .inspect)
         | .unload => some (.unload, .inspect)
     (what = none → u = { x with state := adopted }) ∧
     (∀ (act : Action) (cause : CauseKind), what = some (act, cause) →
       ∃ mask : BitVec 6, (∀ h : Group, mask.getLsbD h.val = true ↔ inSet h) ∧
         u.state = adopted.raised
           { source := .blockStop lead, level := (x.state.lock lead).record.blockLevel, action := act, mask := mask
             sweep := x.number, capture := true, handed := cause } ∧
         (∀ h : Group, ¬inSet h → u.working.entry h = x.working.entry h) ∧
         (∀ h : Group, inSet h → u.working.entry h =
           match act, x.working.entry h with
           | .hold, .engaging | .hold, .run => .hold
           | .unload, .engaging | .unload, .run | .unload, .hold => .unload
           | _, st => st))) ∧
    (let taken := u.state.capture (.block lead) x.number
     t = { taken with markers := t.markers } ∧
     (∀ l : Line,
       let m := taken.markers.entry l
       t.markers.entry l =
         if m.kind = .block ∧ ∃ h : Group, inSet h ∧ m.group = h.val + 1 then { m with timer := some m.width } else m) ∧
     (x.boundary lead ending).working = u.working)

/-! ### The interlock, the alarm table, and the timers -/

/-- R82, R87, R133, R134, R145 to R147: a raise taken whole. With a standing entry it changes nothing. Without one it makes
the entry, moves the groups of its mask by the table of R82 with the hold cause of R87, and asks for its capture, which the
CAPTURE lines are told where it is stored. -/
def Obligations.RaiseTaken : Prop :=
  ∀ (s : State) (r : Raise),
    let t := s.raised r
    let moved := fun g : Group => r.mask.getLsbD g.val = true ∧
      ((r.action = .hold ∧ (s.groupState g = .engaging ∨ s.groupState g = .run)) ∨
        (r.action = .unload ∧
          (s.groupState g = .engaging ∨ s.groupState g = .run ∨ s.groupState g = .hold)))
    ((s.alarm.entry? r.source).isSome = true → t = s) ∧
    (s.alarm.entry? r.source = none →
      t.alarm.counter = s.alarm.counter + 1 ∧ t.alarm.floor = s.alarm.floor ∧
      (∀ e : Entry, e ∈ t.alarm.entries ↔ e ∈ s.alarm.entries ∨
        e = { source := r.source, level := r.level, action := r.action, mask := r.mask, seq := s.alarm.counter
              sweep := r.sweep }) ∧
      (∀ g : Group, moved g →
        t.groupState g = (if r.action = .hold then .hold else .unload) ∧ (t.lock g).engageCount = 0 ∧
        (t.lock g).record = (s.lock g).record ∧
        (t.lock g).cause = some
          { cause := match r.source with
              | .timeout => .timeout
              | .groupSum _ => .sum
              | .drive _ => .drive
              | .blockStop _ => r.handed
              | .coincidence _ | .crack _ | .strain _ => .alarm
            source := some r.source
            sweep := r.sweep }) ∧
      (∀ g : Group, ¬moved g → t.lock g = s.lock g) ∧
      (r.asksCapture = true → s.captures.queue.length < 32 →
        (∃ q : CaptureRecord, t.captures = { s.captures with
            queue := s.captures.queue ++ [q], nextSeq := s.captures.nextSeq + 1 } ∧
          q.seq = s.captures.nextSeq ∧ q.trigger = .raised r.source s.alarm.counter ∧ q.sweep = r.sweep ∧
          (∀ g : Group, q.states.entry g = t.groupState g ∧ q.totals.entry g = (s.cycles.entry g).total
            ∧ q.pointers.entry g = (s.cycles.entry g).pointer) ∧
          q.outputs = allActuators.filterMap (fun a => (s.output a).kept.map (fun force => (a, force))) ∧
          q.strains = s.captures.watchList.filterMap (fun c =>
            (s.strain.entry c).latest.map (fun v => (c, v.1, v.2)))) ∧
        ∀ l : Line, t.markers.entry l =
          if (s.markers.entry l).kind = .capture then
            { s.markers.entry l with timer := some (s.markers.entry l).width } else s.markers.entry l) ∧
      (r.asksCapture = true → 32 ≤ s.captures.queue.length →
        t.captures = { s.captures with lost := true } ∧ t.markers = s.markers) ∧
      (r.asksCapture = false → t.captures = s.captures ∧ t.markers = s.markers) ∧
      (r.asksCapture = true ↔ r.source.number ≤ 28 ∨ r.capture = true) ∧
      t.unit = s.unit ∧ t.outLane = s.outLane ∧ t.retLane = s.retLane ∧ t.slotMap = s.slotMap ∧ t.shaper = s.shaper ∧
      t.pages = s.pages ∧ t.shapes = s.shapes ∧ t.cycles = s.cycles ∧ t.strain = s.strain ∧ t.crack = s.crack ∧
      t.sets = s.sets ∧ t.watch = s.watch ∧ t.service = s.service ∧ t.interlock.acts = s.interlock.acts ∧
      t.pending = s.pending)

/-- R84: the end of an engage interval moves the group from ENGAGING to RUN. Where the report that ends it stands until then
is the model's choice (log 10). Once the group has left ENGAGING the report is ignored. R48, R84, R85: what stage 8 reports to
the interlock: a sweep shaped in ENGAGING, and the completion of an unload. -/
def Obligations.EngageIntervalEnds : Prop :=
  (∀ (s : State) (g : Group),
     (s.groupState g = .engaging → (s.lock g).reportDue = true → exec (.engageIntervalEnd g) s =
       .next (s.onLock g (fun l => { l with state := .run, engageCount := 0, reportDue := false }))) ∧
     (s.groupState g ≠ .engaging → exec (.engageIntervalEnd g) s = .next s)) ∧
  (∀ (x : Shaping) (g : Group),
     let st := x.working.entry g
     let l := x.state.lock g
     let left := fun (f : GroupLock → GroupLock) => ({ x with state := x.state.onLock g f } : Shaping)
     (st = .engaging → x.stage8 g =
       if l.state = .engaging then
         if l.engageCount + 1 = l.record.engageInterval then left (fun l => { l with reportDue := true })
         else left (fun l => { l with engageCount := l.engageCount + 1 })
       else x) ∧
     (st = .unload → x.stage8 g =
       if (∀ a : Actuator, (x.state.actuator a).group = some g →
           (x.state.output a).kept = some (x.state.actuator a).floor) ∧ l.state = .unload then
         left (fun l => { l with state := .rest, engageCount := 0, reportDue := false })
       else x) ∧
     (st ≠ .engaging → st ≠ .unload → x.stage8 g = x))

/-- R158: an expiry of the sweep watch in RUNNING: source 0 is raised on all six groups, and the generator then starts if it
is enabled. -/
def Obligations.WatchExpires : Prop :=
  ∀ s : State, s.watch.state = .running →
    let expired := s.onWatch (fun w => { w with state := .expired, timer := none })
    let taken := expired.raised
      { source := .timeout, level := s.watch.settings.level, action := s.watch.settings.action
        mask := BitVec.allOnes 6, sweep := s.watch.lastController, capture := true, handed := .timeout }
    exec .sweepWatchExpiry s = .next
      (if s.watch.settings.enable = true then
        taken.onWatch (fun w =>
          { w with
            originating := true
            standTimer := some s.watch.settings.period
            lastOriginated := s.watch.lastController })
      else taken) ∧
    (∀ g : Group, s.watch.settings.action = .unload → s.alarm.entry? .timeout = none → s.groupState g = .run →
      taken.groupState g = .unload ∧
        (taken.lock g).cause = some { cause := .timeout, source := some .timeout, sweep := s.watch.lastController })

/-- R159: an expiry of the stand-in timer: one stand-in sweep, with a slot for each bound SETPOINT and status role, of kind
SETPOINT or STATUS, quality NONE and value 0, in ascending slot number, enters the outbound lane, and the timer starts again.
With four frames waiting it is discarded and counted, its number spent. That it joins the waiting frames also in a lane with
nothing in hand, and is discarded there too when four wait, is the model's choice (log 13). -/
def Obligations.StandInOriginated : Prop :=
  ∀ s : State, s.watch.originating = true → s.outLane.bypass = false → mapWf s.slotMap →
    let bytes := sweepBytes
      { origin := 1, governor := 0, number := s.watch.lastOriginated + 1
        slots := s.slotMap.filterMap (fun b =>
          match b.role with
          | .setpoint _ => some { number := b.slot, kind := 1, quality := 0, value := 0 }
          | .statusGroups | .statusFlags | .notice | .noticeSeq =>
            some { number := b.slot, kind := 7, quality := 0, value := 0 }
          | .feedback _ | .strain _ | .crack _ => none) }
    let spent := s.onWatch (fun w =>
      { w with lastOriginated := w.lastOriginated + 1, standTimer := some w.settings.period })
    (s.outLane.waiting.length < 4 → exec .standInExpiry s = .next { spent with
      outLane := { s.outLane with
        waiting := s.outLane.waiting ++ [{ bytes := bytes, bypassed := false, map := [] }] } }) ∧
    (4 ≤ s.outLane.waiting.length → exec .standInExpiry s = .next { spent with
      outLane := { s.outLane with
        badFrames := if s.outLane.badFrames < 65535 then s.outLane.badFrames + 1 else s.outLane.badFrames } })

/-- R153: at the expiry of a marker pulse the line's timer stops, and a line of a pulse kind is then inactive. R154: a line of
a level kind follows its condition. R151: in bypass every line keeps its reset condition, whatever step is taken, a MARKER
command of its own among them (log 1). R156: in bypass so does the sweep watch, a WATCH command of its own among the steps
(log 1). -/
def Obligations.MarkerLinesFollow : Prop :=
  (∀ (s : State) (l : Line),
     let t := s.onMarker l (fun m => { m with timer := none })
     exec (.markerPulseExpiry l) s = .next t ∧
     ((s.markers.entry l).kind.isPulse = true → t.lineActive l = false) ∧
     ∀ k : Line, k ≠ l → t.lineActive k = s.lineActive k) ∧
  (∀ (s : State) (l : Line) (g : Group),
     ((s.markers.entry l).kind = .held → (s.markers.entry l).group = g.val + 1 →
       (s.lineActive l = true ↔ s.groupState g = .engaging ∨ s.groupState g = .hold ∨ s.groupState g = .unload
         ∨ s.groupState g = .rest)) ∧
     ((s.markers.entry l).kind = .notice → (s.lineActive l = true ↔ s.alarm.presented ≠ none))) ∧
  (∀ s t : State,
     let shut := fun u : State => u.outLane.bypass = true → ∀ l : Line,
       u.markers.entry l = { kind := .none, group := 0, width := 1, activeLow := false, timer := none }
     shut s → step s = .next t → shut t) ∧
  (∀ s t : State,
     let shut := fun u : State => u.outLane.bypass = true → u.watch =
       { settings := { interval := 20, action := .unload, level := 7, enable := false, period := 1000 }
         state := .disarmed, timer := none, lastController := 0, originating := false, standTimer := none
         lastOriginated := 0 }
     shut s → step s = .next t → shut t)

/-- R137: the presented notice is an entry above the floor that no other entry above the floor outranks, and there is none
exactly when no entry lies above the floor. The presentation order holds the entries by descending level and within a level by
ascending source number, strictly where no source has two entries. -/
def Obligations.PresentedIsHighest : Prop :=
  ∀ t : AlarmTable,
    (t.presented = none ↔ ∀ e ∈ t.entries, e.level ≤ t.floor) ∧
    (∀ e : Entry, t.presented = some e → e ∈ t.entries ∧ t.floor < e.level ∧
      ∀ f ∈ t.entries, t.floor < f.level →
        f.level < e.level ∨ (f.level = e.level ∧ e.source.number ≤ f.source.number)) ∧
    (∀ e : Entry, e ∈ t.order ↔ e ∈ t.entries) ∧ t.order.length = t.entries.length ∧
    t.order.Pairwise (fun e f => f.level < e.level ∨ (f.level = e.level ∧ e.source.number ≤ f.source.number)) ∧
    ((t.entries.map (·.source)).Nodup →
      t.order.Pairwise (fun e f => f.level < e.level ∨ (f.level = e.level ∧ e.source.number < f.source.number)))

/-- R21 to R23: the fields of the four status words. R20: each word written into the slot of its role where the role is
present, with kind STATUS and quality GOOD, and no other slot changed; and a return sweep taken through all blocks leaves with
the words of the state as the feedback intake, the strain and limit watch and the crack watch have left it. -/
def Obligations.StatusGroupsFields : Prop :=
  (∀ (s : State) (g : Group),
     (s.statusGroups.extractLsb' (4 * g.val) 4).toNat = (match s.groupState g with
       | .off => 0 | .engaging => 1 | .run => 2 | .hold => 3 | .unload => 4 | .rest => 5) ∧
     (s.statusGroups.getLsbD (24 + g.val) = true ↔ (s.pages.entry g).pendingPage ≠ none) ∧
     s.statusGroups.getLsbD 30 = false ∧ s.statusGroups.getLsbD 31 = false) ∧
  (∀ s : State, s.captures.queue.length ≤ 32 →
     let w := s.statusFlags
     (w.extractLsb' 0 6).toNat = s.captures.queue.length ∧
     w.getLsbD 6 = s.captures.lost ∧
     (w.getLsbD 7 = true ↔ s.captures.watermark ≤ s.captures.queue.length) ∧
     w.getLsbD 8 = s.watch.originating ∧
     w.getLsbD 9 = s.service.svcDrop ∧
     (∀ g : Group, w.getLsbD (10 + g.val) = (s.pages.entry g).overridden) ∧
     (∀ i : Nat, 16 ≤ i → w.getLsbD i = false)) ∧
  (∀ s : State, s.alarm.entries.length ≤ 357 → (∀ e ∈ s.alarm.entries, e.level ≤ 7) →
     let w := s.noticeWord
     let q := s.noticeSeqWord
     (w.extractLsb' 16 9).toNat = s.alarm.entries.length ∧
     w.extractLsb' 14 2 = 0 ∧ w.extractLsb' 25 7 = 0 ∧
     (s.alarm.presented = none →
       (w.extractLsb' 0 9).toNat = 511 ∧ w.extractLsb' 9 3 = 0 ∧ w.extractLsb' 12 2 = 0 ∧ q = 0) ∧
     (∀ e : Entry, s.alarm.presented = some e →
       (w.extractLsb' 0 9).toNat = e.source.number ∧
       (w.extractLsb' 9 3).toNat = e.level ∧
       (w.extractLsb' 12 2).toNat = (match e.action with | .note => 0 | .hold => 1 | .unload => 2) ∧
       q.extractLsb' 0 16 = e.seq ∧ q.extractLsb' 16 16 = e.sweep)) ∧
  (∀ (s : State) (map : List Binding) (sw : Sweep), mapWf map →
     let word := fun r : Role => match r with
       | .statusGroups => some s.statusGroups
       | .statusFlags => some s.statusFlags
       | .notice => some s.noticeWord
       | .noticeSeq => some s.noticeSeqWord
       | .setpoint _ | .feedback _ | .strain _ | .crack _ => none
     let out := s.statusWriter map sw
     out = { sw with slots := out.slots } ∧ out.slots.length = sw.slots.length ∧
     (∀ (r : Role) (v : Word) (i : Nat) (sl : Slot), word r = some v → present? s.crack map sw.slots r = some (i, sl) →
       out.slots[i]? = some { number := sl.number, kind := 7, quality := 1, value := v }) ∧
     (∀ i : Nat, (∀ (r : Role) (v : Word) (sl : Slot), word r = some v → present? s.crack map sw.slots r ≠ some (i, sl)) →
       out.slots[i]? = sw.slots[i]?)) ∧
  (∀ (s : State) (w : Waiting) (rest : List Waiting), s.retLane.hand = none → s.retLane.waiting = w :: rest →
     w.bypassed = false → frameKind w.bytes = 0xA1 → s.service.replySending = false →
     let sw := readSweep w.bytes
     let judged := (s.feedbackIntake w.map sw).strainBlock w.map sw
     let watched := judged.1.crackWatch w.map judged.2
     ∃ t : State, exec (.returnSweep ⟨.statusWriter, none⟩) s = .next t ∧
       t.retLane.hand = some (.sending (sweepBytes (watched.statusWriter w.map judged.2))) ∧
       t.statusGroups = watched.statusGroups ∧ t.statusFlags = watched.statusFlags ∧
       t.noticeWord = watched.noticeWord ∧ t.noticeSeqWord = watched.noticeSeqWord)

/-! ### The return lane's blocks -/

/-- R92 to R94: the feedback of an actuator, by the quality of its slot (a FAULT on an armed source disarms it and makes the
raise of R94, whole), and the intake of a sweep, which takes the actuators whose FEEDBACK role is present in ascending
actuator number. -/
def Obligations.FeedbackTaken : Prop :=
  (∀ (s : State) (a : Actuator) (sl : Slot) (number : Half),
     let t := s.takeFeedback a sl number
     let v := sl.value.toInt
     (qualityOf sl.quality = .good → t = s.onActuator a (fun x =>
       { x with seed := if v.natAbs ≤ 400000 then some v else x.seed, armed := true })) ∧
     (qualityOf sl.quality = .none → t = s) ∧
     (qualityOf sl.quality ≠ .good → qualityOf sl.quality ≠ .none → qualityOf sl.quality ≠ .fault →
       t = s.onActuator a (fun x => { x with armed := true })) ∧
     (qualityOf sl.quality = .fault → (s.actuator a).armed = false → t = s) ∧
     (qualityOf sl.quality = .fault → (s.actuator a).armed = true →
       (t.actuator a).armed = false ∧ (t.actuator a).seed = (s.actuator a).seed ∧
       (s.alarm.entry? (.drive a) = none →
         (∃ e ∈ t.alarm.entries, e.source = .drive a ∧ e.level = (s.actuator a).level ∧ e.action = .unload
           ∧ e.sweep = number) ∧
         ∀ g : Group, (s.actuator a).group = some g →
           s.groupState g = .engaging ∨ s.groupState g = .run ∨ s.groupState g = .hold →
           t.groupState g = .unload ∧
             (t.lock g).cause = some { cause := .drive, source := some (.drive a), sweep := number }) ∧
       t = (s.onActuator a (fun x => { x with armed := false })).raised
         { source := .drive a, level := (s.actuator a).level, action := .unload
           mask := (match (s.actuator a).group with
             | none => 0
             | some g => BitVec.twoPow 6 g.val)
           sweep := number, capture := true, handed := .drive })) ∧
  (∀ (s : State) (map : List Binding) (sw : Sweep),
     s.feedbackIntake map sw = allActuators.foldl (fun u a =>
       match present? s.crack map sw.slots (.feedback a) with
       | none => u
       | some (_, sl) => u.takeFeedback a sl sw.number) s)

/-- R99 to R103: conditioning rounds to the nearest integer, halves away from zero; a compensated channel takes its
compensation channel's value of the same sweep away where that came out GOOD and is UNCOMP where it did not; every conditioned
value is stopped at 50,000; and the slots are rewritten with the value, or as UNCAL without a calibration record. -/
def Obligations.ConditioningRounds : Prop :=
  (∀ (cal : Calibration) (r : Int),
    let product := (r - cal.zero) * cal.gain
    let e := conditionRaw cal r
    2 * (65536 * e - product).natAbs ≤ 65536 ∧
    (2 * (65536 * e - product).natAbs = 65536 → product.natAbs < (65536 * e).natAbs)) ∧
  (∀ (rd : Reading) (s : State) (c : Fin 256) (e : Int) (q : Quality), rd.conditioned s c = some (e, q) →
    -50000 ≤ e ∧ e ≤ 50000 ∧ (q = .good ∨ q = .uncomp ∨ q = .saturated)) ∧
  (∀ (rd : Reading) (s : State) (c : Fin 256),
    let slot := fun d : Fin 256 => present? s.crack rd.map rd.slots (.strain d)
    let stopped := fun (e : Int) (q : Quality) =>
      if 50000 < e then (50000, Quality.saturated) else if e < -50000 then (-50000, .saturated) else (e, q)
    ((slot c = none ∨ (s.strain.entry c).cal = none ∨
        ∃ (i : Nat) (sl : Slot), slot c = some (i, sl) ∧ qualityOf sl.quality ≠ .good) → rd.conditioned s c = none) ∧
    (∀ (cal : Calibration) (i : Nat) (sl : Slot), (s.strain.entry c).cal = some cal → slot c = some (i, sl) →
      qualityOf sl.quality = .good →
      let e := conditionRaw cal sl.value.toInt
      (cal.comp = none → rd.conditioned s c = some (stopped e .good)) ∧
      (∀ d : Fin 256, cal.comp = some d → (slot d = none ∨ (s.strain.entry d).cal = none) →
        rd.conditioned s c = some (stopped e .uncomp)) ∧
      (∀ (d : Fin 256) (cd : Calibration) (j : Nat) (sd : Slot), cal.comp = some d → (s.strain.entry d).cal = some cd →
        cd.comp = none → slot d = some (j, sd) →
        let ed := conditionRaw cd sd.value.toInt
        rd.conditioned s c = some
          (if qualityOf sd.quality = .good ∧ ed.natAbs ≤ 50000 then stopped (e - ed) .good else stopped e .uncomp)))) ∧
  (∀ (rd : Reading) (s : State), mapWf rd.map →
    let slot := fun d : Fin 256 => present? s.crack rd.map rd.slots (.strain d)
    let out := rd.conditionedSlots s
    out.length = rd.slots.length ∧
    (∀ (c : Fin 256) (i : Nat) (sl : Slot), slot c = some (i, sl) →
      (qualityOf sl.quality ≠ .good → out[i]? = some sl) ∧
      (qualityOf sl.quality = .good → (s.strain.entry c).cal = none →
        out[i]? = some { number := sl.number, kind := 3, quality := 6, value := sl.value }) ∧
      (∀ (e : Int) (q : Quality), rd.conditioned s c = some (e, q) →
        out[i]? = some { number := sl.number, kind := 4, quality := BitVec.ofNat 8 q.toCode, value := intWord e })) ∧
    (∀ i : Nat, (∀ (c : Fin 256) (sl : Slot), slot c ≠ some (i, sl)) → out[i]? = rd.slots[i]?))

/-- R107: the plain and the release band of a value, and for a limit record that passes R104 the release band is never milder
than the plain band, so that no judged sweep is of both directions. R108, R109: a judged sweep beyond the watch state counts
toward the debounce with its run band, a sweep that brings the count there moves the watch state to the run band, and a steady
sweep ends the run. R110, R112: a move from NORMAL to WARN alone is counted, and a move out of STOP re-arms. R106, R111: a
channel that is not judged breaks its run, and a move into STOP raises an armed source with a level. R98, R103, R111: the
strain block's judging gives every channel this, with its conditioned value of the sweep, and changes nothing else; its raises
are those of the channels that it raises, in ascending channel number, each with the fields of R111. -/
def Obligations.WatchStateMoves : Prop :=
  (∀ (l : LimitRecord) (e : Int),
     (l.plainBand e = if e < l.stopLow ∨ l.stopHigh < e then .stop
       else if e < l.warnLow ∨ l.warnHigh < e then .warn else .normal) ∧
     (l.releaseBand e = if l.warnLow + l.hysteresis ≤ e ∧ e ≤ l.warnHigh - l.hysteresis then .normal
       else if l.stopLow + l.hysteresis ≤ e ∧ e ≤ l.stopHigh - l.hysteresis then .warn else .stop)) ∧
  (∀ (l : LimitRecord) (e : Int), l.warnLow < l.warnHigh → l.stopLow ≤ l.warnLow → l.warnHigh ≤ l.stopHigh →
     2 * (l.hysteresis : Int) ≤ l.warnHigh - l.warnLow →
     (l.plainBand e).toCode ≤ (l.releaseBand e).toCode ∧
     ∀ watch : Band, ¬(watch.toCode < (l.plainBand e).toCode ∧ (l.releaseBand e).toCode < watch.toCode)) ∧
  (∀ (ch : StrainChannel) (l : LimitRecord) (e : Int), ch.runWf →
     let t := ch.judgeValue l e
     (t.watch ≠ ch.watch → l.debounce ≤ ch.debounce + 1 ∨ l.debounce ≤ 1) ∧
     (t.watch ≠ ch.watch → t.debounce = 0 ∧ t.run = none) ∧
     (ch.watch.toCode < t.watch.toCode → t.watch.toCode ≤ (l.plainBand e).toCode) ∧
     (t.watch.toCode < ch.watch.toCode → (l.releaseBand e).toCode ≤ t.watch.toCode) ∧
     (t.warnCount = if ch.watch = .normal ∧ t.watch = .warn then
         (if ch.warnCount < 65535 then ch.warnCount + 1 else ch.warnCount) else ch.warnCount) ∧
     (t.armed = (ch.armed || (ch.watch == .stop && t.watch != .stop))) ∧
     t.runWf ∧ t.cal = ch.cal ∧ t.limit = ch.limit ∧ t.latest = ch.latest) ∧
  (∀ (ch : StrainChannel) (l : LimitRecord) (e : Int),
     let p := l.plainBand e
     let r := l.releaseBand e
     let t := ch.judgeValue l e
     let counted := fun (dir : Direction) (n : Nat) (b : Band) =>
       (n < l.debounce → t = { ch with debounce := n, run := some (dir, b) }) ∧
       (l.debounce ≤ n → t.watch = b ∧ t.debounce = 0 ∧ t.run = none)
     (ch.watch.toCode < p.toCode →
       (∀ b : Band, ch.run = some (.moreSevere, b) →
         counted .moreSevere (ch.debounce + 1) (if b.toCode < p.toCode then b else p)) ∧
       ((∀ b : Band, ch.run ≠ some (.moreSevere, b)) → counted .moreSevere 1 p)) ∧
     (¬ch.watch.toCode < p.toCode → r.toCode < ch.watch.toCode →
       (∀ b : Band, ch.run = some (.lessSevere, b) →
         counted .lessSevere (ch.debounce + 1) (if r.toCode < b.toCode then b else r)) ∧
       ((∀ b : Band, ch.run ≠ some (.lessSevere, b)) → counted .lessSevere 1 r)) ∧
     (¬ch.watch.toCode < p.toCode → ¬r.toCode < ch.watch.toCode → t = { ch with debounce := 0, run := none })) ∧
  (∀ (ch : StrainChannel) (v : Option (Int × Quality)),
     let kept := { ch with latest := if v.isSome = true then v else ch.latest }
     let t := ch.afterSweep v
     ((ch.limit = none ∨ v = none) → t = ({ kept with debounce := 0, run := none }, false)) ∧
     (∀ (l : LimitRecord) (e : Int) (q : Quality), ch.limit = some l → v = some (e, q) →
       let j := kept.judgeValue l e
       (t.2 = true ↔ ch.watch ≠ .stop ∧ j.watch = .stop ∧ 1 ≤ l.level ∧ ch.armed = true) ∧
       t.1 = { j with armed := j.armed && !t.2 })) ∧
  (∀ (s : State) (rd : Reading) (number : Half),
     let after := fun c : Fin 256 => (s.strain.entry c).afterSweep (rd.conditioned s c)
     let u := s.strainJudged rd
     (∀ c : Fin 256, u.strain.entry c = (after c).1) ∧ u = { s with strain := u.strain } ∧
     (∀ r : Raise, r ∈ rd.strainRaises s number ↔
       ∃ (c : Fin 256) (l : LimitRecord), (s.strain.entry c).limit = some l ∧ (after c).2 = true ∧
         r.source.number = 128 + c.val ∧
         r = { source := .strain c, level := l.level, action := l.action, mask := l.mask, sweep := number
               capture := l.capture, handed := .alarm }) ∧
     (rd.strainRaises s number).Pairwise (fun r q => r.source.number < q.source.number))

/-- R119 to R121, R125: a WIRE channel after a reading, in and out of SENSOR_FAULT. R123 to R125: an AE channel after a sweep
with `hits` hits. R128: a coincidence set after a sweep, and whether it is raised. R119, R122: the reading and the hit count
of a slot, and the step of a channel by the kind of its record. R118, R124, R129: the evaluation of a sweep, the channels and
then the sets, and the raises that it owes, the sets' before the channels', in ascending number, each with its fields. -/
def Obligations.CrackChannelsEvaluated : Prop :=
  ((∀ (ch : CrackChannel) (rec : CrackRecord),
      (ch.wireStep rec .none = { channel := { ch with debounce := 0 }, raise := none }) ∧
      (let t := ch.wireStep rec .openCircuit;
        t.channel.sensorFault = true ∧ t.channel.condition = ch.condition ∧ t.channel.debounce = 0 ∧
        t.raise = (if ch.sensorFault = false ∧ 1 ≤ rec.level ∧ ch.armed = true then some .note else none) ∧
        t.channel.armed = (ch.armed && t.raise.isNone)) ∧
      (∀ broken : Bool,
        let t := ch.wireStep rec (if broken then .broken else .intact)
        let armed := ch.armed || (ch.sensorFault && !ch.condition)
        t.channel.sensorFault = false ∧ t.channel.record = ch.record ∧ t.channel.accumulator = ch.accumulator ∧
        (broken = ch.condition →
          t.channel.condition = ch.condition ∧ t.channel.debounce = 0 ∧ t.raise = none ∧ t.channel.armed = armed) ∧
        (broken ≠ ch.condition → ch.debounce + 1 < rec.debounce →
          t.channel.condition = ch.condition ∧ t.channel.debounce = ch.debounce + 1 ∧ t.raise = none ∧
          t.channel.armed = armed) ∧
        (broken ≠ ch.condition → rec.debounce ≤ ch.debounce + 1 →
          t.channel.condition = broken ∧ t.channel.debounce = 0 ∧
          (broken = false → t.channel.armed = true ∧ t.raise = none) ∧
          (broken = true →
            t.raise = (if 1 ≤ rec.level ∧ armed = true then some rec.action else none) ∧
            t.channel.armed = (armed && t.raise.isNone))))) ∧
   (∀ (ch : CrackChannel) (rec : CrackRecord) (hits : Nat),
      let a := min 16777215 (ch.accumulator - ch.accumulator / 2 ^ rec.decay + hits)
      let t := ch.aeStep rec hits
      t.channel.accumulator = a ∧
      t.channel.condition = (if ch.condition = true then decide (rec.threshold / 2 ≤ a) else decide (rec.threshold ≤ a)) ∧
      t.raise = (if ch.condition = false ∧ rec.threshold ≤ a ∧ 1 ≤ rec.level ∧ ch.armed = true then some rec.action
        else none) ∧
      t.channel.armed =
        (if t.raise.isSome then false else if ch.condition = true ∧ a < rec.threshold / 2 then true else ch.armed) ∧
      t.channel.debounce = ch.debounce ∧ t.channel.sensorFault = ch.sensorFault ∧ t.channel.record = ch.record)) ∧
  (∀ (st : CoincidenceSet) (rec : CoincidenceRecord) (crack : Vector CrackChannel 64), st.record = some rec →
     let n := (rec.members.filter (fun k => (crack.entry k).condition)).length
     (st.afterSweep crack).lastCount = n ∧ (st.afterSweep crack).record = some rec ∧
     (st.raises crack = true ↔ rec.minimum ≤ n ∧ st.armed = true ∧ 1 ≤ rec.level) ∧
     (st.afterSweep crack).armed =
       (if n < rec.minimum then true else if 1 ≤ rec.level then false else st.armed)) ∧
  ((wireReadingOf none = .none ∧ hitsOf none = 0) ∧
   (∀ (i : Nat) (sl : Slot),
      let reading := wireReadingOf (some (i, sl))
      let hits := hitsOf (some (i, sl))
      let v := sl.value.toInt
      (qualityOf sl.quality = .good →
        reading = (if v = 0 then .intact else if v = 1 then .broken else .openCircuit) ∧
        hits = (if v < 0 then 0 else if v ≤ 65535 then v.toNat else 65535)) ∧
      (qualityOf sl.quality = .fault → reading = .openCircuit ∧ hits = 0) ∧
      (qualityOf sl.quality ≠ .good → qualityOf sl.quality ≠ .fault → reading = .none ∧ hits = 0)) ∧
   (∀ (ch : CrackChannel) (slot : Option (Nat × Slot)),
      (ch.record = none → ch.afterSweep slot = { channel := ch, raise := none }) ∧
      (∀ rec : CrackRecord, ch.record = some rec →
        (rec.kind = .wire → ch.afterSweep slot = ch.wireStep rec (wireReadingOf slot)) ∧
        (rec.kind = .ae → ch.afterSweep slot = ch.aeStep rec (hitsOf slot))))) ∧
  (∀ (s : State) (rd : Reading) (number : Half),
     let after := fun k : Fin 64 => (s.crack.entry k).afterSweep (present? s.crack rd.map rd.slots (.crack k))
     let u := s.crackEvaluated rd
     (∀ k : Fin 64, u.crack.entry k = (after k).channel) ∧
     (∀ n : Fin 8, u.sets.entry n =
       if (s.sets.entry n).record = none then s.sets.entry n else (s.sets.entry n).afterSweep u.crack) ∧
     u = { s with crack := u.crack, sets := u.sets } ∧
     (∀ r : Raise, r ∈ rd.watchRaises s number ↔
       (∃ (n : Fin 8) (rec : CoincidenceRecord), (s.sets.entry n).record = some rec ∧
         (s.sets.entry n).raises u.crack = true ∧ r.source.number = 32 + n.val ∧
         r = { source := .coincidence n, level := rec.level, action := rec.action, mask := rec.mask, sweep := number
               capture := rec.capture, handed := .alarm }) ∨
       ∃ (k : Fin 64) (rec : CrackRecord) (act : Action), (s.crack.entry k).record = some rec ∧
         (after k).raise = some act ∧ r.source.number = 64 + k.val ∧
         r = { source := .crack k, level := rec.level, action := act, mask := rec.mask, sweep := number
               capture := rec.capture, handed := .alarm }) ∧
     (rd.watchRaises s number).Pairwise (fun r q => r.source.number < q.source.number))

/-! ### Service commands -/

/-- R166: a service command whose result is any code but OK changes nothing but the qualifier state and the results, and
returns no words. The raises that a return-lane block still owes are handed over before it (R165; that they stand owed is the
model's choice, log 9). -/
def Obligations.RefusedCommandChangesNothing : Prop :=
  ∀ (c : Instr) (code : Byte) (index : Half) (before t : State) (r : ItemResult),
    let s := before.finishBlock
    commandItem? c = some (code, index) →
    exec c before = .next t → t.service.results = s.service.results ++ [r] → r.result ≠ .ok →
    t = s.answered code index r.result []

/-- R167: the two qualifiers. The raises that a return-lane block still owes are handed over first (R165; that they stand owed
is the model's choice, log 9). -/
def Obligations.QualifiersSet : Prop :=
  ∀ (before : State) (index : Half) (args : List Word),
    let s := before.finishBlock
    exec (.page index args) before = .next (s.onService (fun v =>
      if h : index.toNat ≤ 3 ∧ args = [] then { v with page := some ⟨index.toNat, by omega⟩ }
      else { v with results := v.results ++ [{ code := 0x01, result := .badValue, index := index, words := [] }] })) ∧
    exec (.quiet index args) before = .next (s.onService (fun v =>
      if index = 0 ∧ args = [] then { v with quiet := true }
      else { v with results := v.results ++ [{ code := 0x02, result := .badValue, index := index, words := [] }] }))

/-- R15 to R18, R93: a role bound to a slot number, the same binding asked for again, the role of a slot number unbound, and a
slot number without a role; and the refusals of R15 in their order. That a word count other than one is BAD_VALUE is the
model's reading (log 6), and so is that STATE comes also where the slot number carries another role or the binding stands (log
7). R98, R118: the raises that a return-lane block still owes are handed over first (that they stand owed is the model's
choice, log 9). -/
def Obligations.MapBindsAndUnbinds : Prop :=
  (∀ (before : State) (index : Half) (r : Role),
     let s := before.finishBlock
     (∀ (a : Actuator) (g : Group), r.actuator? = some a → (s.actuator a).group = some g → s.groupState g = .off) →
     (roleAt? s.slotMap index = none → slotOf? s.slotMap r = none →
       ∃ t : State, exec (.map index [natWord r.code]) before = .next (t.answered 0x10 index .ok []) ∧
         (∀ b : Binding, b ∈ t.slotMap ↔ b ∈ s.slotMap ∨ b = { slot := index, role := r }) ∧
         (mapWf s.slotMap → mapWf t.slotMap) ∧
         { t with slotMap := s.slotMap } = (match r with
           | .strain c => s.onStrain c (fun ch =>
               { ch with watch := .normal, debounce := 0, run := none, latest := none, armed := true })
           | .crack k => s.onCrack k (fun ch =>
               { ch with condition := false, sensorFault := false, debounce := 0, accumulator := 0, armed := true })
           | .feedback a => s.onActuator a (fun x => { x with armed := true })
           | .setpoint _ | .statusGroups | .statusFlags | .notice | .noticeSeq => s)) ∧
     (roleAt? s.slotMap index = some r → slotOf? s.slotMap r = some index →
       exec (.map index [natWord r.code]) before = .next (s.answered 0x10 index .ok []))) ∧
  (∀ (before : State) (index : Half),
     let s := before.finishBlock
     (∀ r : Role, roleAt? s.slotMap index = some r →
       (∀ (a : Actuator) (g : Group), r.actuator? = some a → (s.actuator a).group = some g → s.groupState g = .off) →
       exec (.map index [0]) before = .next ((match r with
         | .strain c => { s with slotMap := s.slotMap.filter (fun b => b.slot != index) }.onStrain c (fun ch =>
             { ch with watch := .normal, debounce := 0, run := none, latest := none, armed := true })
         | .crack k => { s with slotMap := s.slotMap.filter (fun b => b.slot != index) }.onCrack k (fun ch =>
             { ch with condition := false, sensorFault := false, debounce := 0, accumulator := 0, armed := true })
         | .feedback a => { s with slotMap := s.slotMap.filter (fun b => b.slot != index) }.onActuator a (fun x =>
             { x with armed := true, seed := none })
         | .setpoint _ | .statusGroups | .statusFlags | .notice | .noticeSeq =>
           { s with slotMap := s.slotMap.filter (fun b => b.slot != index) }).answered 0x10 index .ok [])) ∧
     (roleAt? s.slotMap index = none → exec (.map index [0]) before = .next (s.answered 0x10 index .ok []))) ∧
  (∀ (before : State) (index : Half),
     let s := before.finishBlock
     let refused := fun (args : List Word) (code : ResultCode) =>
       exec (.map index args) before = .next (s.answered 0x10 index code [])
     let busy := fun r : Role => ∃ (a : Actuator) (g : Group),
       r.actuator? = some a ∧ (s.actuator a).group = some g ∧ s.groupState g ≠ .off
     (∀ args : List Word, (∀ w : Word, args ≠ [w]) → refused args .badValue) ∧
     (∀ w : Word,
       let high := w.toNat / 256
       let low := w.toNat % 256
       let inRange := (high = 0 ∧ low = 0) ∨ ((high = 1 ∨ high = 2) ∧ 1 ≤ low ∧ low ≤ 16) ∨ high = 3 ∨
         (high = 4 ∧ low ≤ 63) ∨ (5 ≤ high ∧ high ≤ 8 ∧ low = 0)
       (¬inRange → refused [w] .badValue) ∧ (inRange → w = 0 ∨ ∃ r : Role, w = natWord r.code)) ∧
     (∀ r : Role, busy r → refused [natWord r.code] .state) ∧
     (∀ r : Role, roleAt? s.slotMap index = some r → busy r → refused [0] .state) ∧
     (∀ r : Role, ¬busy r →
       (∃ q : Role, roleAt? s.slotMap index = some q ∧ q ≠ r) ∨ (∃ n : Half, slotOf? s.slotMap r = some n ∧ n ≠ index) →
       refused [natWord r.code] .bound))

/-- R79 to R81, R86, R25, R74: HOLD, UNLOAD and DISENGAGE in every state of the group, and their refusals by index and words.
The raises that a return-lane block still owes are handed over first (R165; that they stand owed is the model's choice, log
9). -/
def Obligations.HoldUnloadDisengage : Prop :=
  (∀ (before : State) (index : Half) (g : Group),
     let s := before.finishBlock
     index.toNat = g.val + 1 →
     let moved := fun st : GroupState => s.onLock g (fun l =>
       { l with
         state := st, engageCount := 0, reportDue := false
         cause := some { cause := .command, source := none, sweep := s.shaper.lastTaken } })
     exec (.hold index []) before = .next (match s.groupState g with
       | .engaging | .run => (moved .hold).answered 0x22 index .ok []
       | .hold => s.answered 0x22 index .ok []
       | .unload | .rest | .off => s.answered 0x22 index .state []) ∧
     exec (.unload index []) before = .next (match s.groupState g with
       | .engaging | .run | .hold => (moved .unload).answered 0x23 index .ok []
       | .unload => s.answered 0x23 index .ok []
       | .rest | .off => s.answered 0x23 index .state [])) ∧
  (∀ (before : State) (index : Half) (g : Group),
     let s := before.finishBlock
     index.toNat = g.val + 1 →
     let off := fun cause : Option HoldCause =>
       ((s.onLock g (fun l => { l with state := .off, engageCount := 0, reportDue := false, cause := cause })).onOutputs
         (fun a o => if (s.actuator a).group = some g then { o with kept := none, hold := none } else o)).onShape g
           (fun x => { x with lastShaped := some .off })
     exec (.disengage index []) before = .next (match s.groupState g with
       | .engaging =>
         (off (some { cause := .command, source := none, sweep := s.shaper.lastTaken })).answered 0x24 index .ok []
       | .hold | .rest => (off (s.lock g).cause).answered 0x24 index .ok []
       | .off => s.answered 0x24 index .ok []
       | .run | .unload => s.answered 0x24 index .state [])) ∧
  (∀ (before : State) (index : Half) (args : List Word),
     let s := before.finishBlock
     let refused := fun code : ResultCode =>
       exec (.hold index args) before = .next (s.answered 0x22 index code []) ∧
       exec (.unload index args) before = .next (s.answered 0x23 index code []) ∧
       exec (.disengage index args) before = .next (s.answered 0x24 index code [])
     (index = 0 ∨ 6 < index.toNat → refused .badIndex) ∧
     (index ≠ 0 → index.toNat ≤ 6 → args ≠ [] → refused .badValue))

/-- R76 to R78, R33, R35: RELEASE, with its checks in their order. The raises that a return-lane block still owes are handed
over first (R165; that they stand owed is the model's choice, log 9). -/
def Obligations.ReleaseChecksAndMoves : Prop :=
  (∀ (before : State) (index : Half) (args : List Word),
     let s := before.finishBlock
     let refused := fun code : ResultCode => exec (.release index args) before = .next (s.answered 0x21 index code [])
     (index = 0 ∨ 6 < index.toNat → refused .badIndex) ∧
     (index ≠ 0 → index.toNat ≤ 6 → args ≠ [] → refused .badValue)) ∧
  (∀ (before : State) (index : Half) (g : Group),
    let s := before.finishBlock
    index.toNat = g.val + 1 →
    exec (.release index []) before = .next
      (if s.groupState g = .engaging ∨ s.groupState g = .run ∨ s.groupState g = .unload then
        s.answered 0x21 index .state []
      else if ∃ e ∈ s.alarm.entries, e.action ≠ .note ∧ e.mask.getLsbD g.val = true then
        s.answered 0x21 index .latched []
      else if ∀ a : Actuator, (s.actuator a).group ≠ some g then s.answered 0x21 index .empty []
      else if ∃ a : Actuator, (s.actuator a).group = some g ∧ (s.activePage g).entries.entry a = none then
        s.answered 0x21 index .incomplete []
      else if s.groupState g = .off then
        if ∃ a : Actuator, (s.actuator a).group = some g ∧ (s.actuator a).seed = none then
          s.answered 0x21 index .noFeedback []
        else
          (((s.onLock g (fun l => { l with state := .engaging, engageCount := 0, reportDue := false })).onShape g
            (fun x => { x with theta := 0 })).onOutputs (fun a o =>
              if (s.actuator a).group = some g then { o with kept := (s.actuator a).seed } else o)).answered
            0x21 index .ok []
      else
        (s.onLock g (fun l => { l with state := .run, engageCount := 0, reportDue := false })).answered
          0x21 index .ok []))

/-- R89, R91, R72: the records of an actuator and of a group written, or, without words, returned to their reset content (R88,
R90); and refused for an index that names none and for words out of their ranges. The raises that a return-lane block still
owes are handed over first (R165; that they stand owed is the model's choice, log 9). -/
def Obligations.InterlockRecordsWritten : Prop :=
  (∀ (before : State) (index : Half) (a : Actuator) (group : Option Group) (floor : Int) (level : Nat)
    (args : List Word),
     let s := before.finishBlock
     index.toNat = a.val + 1 → -400000 ≤ floor → floor ≤ 400000 → 1 ≤ level → level ≤ 7 →
    args = [natWord (numberOrZero group), intWord floor, natWord level] ∨
      (args = [] ∧ group = none ∧ floor = 0 ∧ level = 7) →
    exec (.actuator index args) before = .next
      (if (∃ g : Group, ((s.actuator a).group = some g ∨ group = some g) ∧ s.groupState g ≠ .off) then
        s.answered 0x11 index .state []
      else
        (s.onActuator a (fun x => { x with group := group, floor := floor, level := level })).answered
          0x11 index .ok [])) ∧
  (∀ (before : State) (index : Half) (g : Group) (r : GroupRecord) (args : List Word),
     let s := before.finishBlock
     index.toNat = g.val + 1 →
    1 ≤ r.unloadRate → r.unloadRate ≤ 65535 → 1 ≤ r.engageInterval → r.engageInterval ≤ 255 →
    1 ≤ r.sumLevel → r.sumLevel ≤ 7 → 1 ≤ r.blockLevel → r.blockLevel ≤ 7 →
    args = [natWord r.unloadRate, natWord r.engageInterval, natWord (numberOrZero r.lead), natWord r.sumLevel,
        natWord r.blockLevel] ∨
      (args = [] ∧ r = { unloadRate := 100, engageInterval := 10, lead := none, sumLevel := 7, blockLevel := 7 }) →
    exec (.group index args) before = .next
      (if s.groupState g ≠ .off ∧ s.groupState g ≠ .rest then s.answered 0x12 index .state []
      else if r.lead = s.lead g then (s.onLock g (fun l => { l with record := r })).answered 0x12 index .ok []
      else if s.groupState g ≠ .off
          ∨ ∃ h : Group, (s.lead g = some h ∨ r.lead = some h) ∧ s.groupState h ≠ .off then
        s.answered 0x12 index .state []
      else if (∃ h : Group, r.lead = some h ∧ (h = g ∨ s.lead h ≠ none)) ∨ ∃ h : Group, h ≠ g ∧ s.lead h = some g then
        s.answered 0x12 index .chain []
      else
        ((s.onLock g (fun l => { l with record := r })).onCycles g (fun c => { c with block := 0 })).answered
          0x12 index .ok [])) ∧
  (∀ (before : State) (index : Half) (args : List Word),
    let s := before.finishBlock
    let actuator := fun code : ResultCode => exec (.actuator index args) before = .next (s.answered 0x11 index code [])
    let group := fun code : ResultCode => exec (.group index args) before = .next (s.answered 0x12 index code [])
    (index = 0 ∨ 16 < index.toNat → actuator .badIndex) ∧
    (index = 0 ∨ 6 < index.toNat → group .badIndex) ∧
    (index ≠ 0 → index.toNat ≤ 16 → args ≠ [] →
      (∀ (named : Option Group) (floor : Int) (level : Nat), -400000 ≤ floor → floor ≤ 400000 → 1 ≤ level → level ≤ 7 →
        args ≠ [natWord (numberOrZero named), intWord floor, natWord level]) → actuator .badValue) ∧
    (index ≠ 0 → index.toNat ≤ 6 → args ≠ [] →
      (∀ r : GroupRecord, 1 ≤ r.unloadRate → r.unloadRate ≤ 65535 → 1 ≤ r.engageInterval → r.engageInterval ≤ 255 →
        1 ≤ r.sumLevel → r.sumLevel ≤ 7 → 1 ≤ r.blockLevel → r.blockLevel ≤ 7 →
        args ≠ [natWord r.unloadRate, natWord r.engageInterval, natWord (numberOrZero r.lead), natWord r.sumLevel,
          natWord r.blockLevel]) → group .badValue))

/-- R55 to R57: the two parts of a page written, on the page that the PAGE qualifier names, with the page's protection; and
refused without the qualifier, for an index that names no part, and for words out of their ranges. The raises that a
return-lane block still owes are handed over first (R165; that they stand owed is the model's choice, log 9). -/
def Obligations.PagesWritten : Prop :=
  (∀ (before : State) (g : Group) (p : Fin 4),
    let s := before.finishBlock
    s.service.page = some p →
    let guarded := fun (code : Byte) (index : Half) (f : Page → Page) =>
      if (s.pages.entry g).pendingPage = some p then s.answered code index .pagePending []
      else if (s.pages.entry g).active = p ∧ s.groupState g ≠ .off then s.answered code index .pageActive []
      else (s.onPages g (fun y => { y with pages := y.pages.alter p f })).answered code index .ok []
    (∀ (index : Half) (step limit : Nat), index.toNat = g.val + 1 → step ≤ 16384 → limit ≤ 6400000 →
      exec (.pageGroup index [natWord step, natWord limit]) before =
        .next (guarded 0x13 index (fun y => { y with step := step, sumLimit := limit }))) ∧
    (∀ index : Half, index.toNat = g.val + 1 → exec (.pageGroup index []) before =
      .next (guarded 0x13 index (fun _ => { step := 0, sumLimit := 0, entries := fill 16 none }))) ∧
    (∀ (index : Half) (a : Actuator) (e : PageEntry), index.toNat = 256 * (g.val + 1) + (a.val + 1) →
      -400000 ≤ e.mean → e.mean ≤ 400000 → e.amplitude ≤ 200000 → -400000 ≤ e.fmin → e.fmin ≤ e.fmax →
      e.fmax ≤ 400000 → 1 ≤ e.slew → e.slew ≤ 65535 →
      exec (.pageAct index [natWord e.mode.toCode, intWord e.mean, natWord e.amplitude, natWord e.offset.toNat,
        natWord e.shape.val, intWord e.fmin, intWord e.fmax, natWord e.slew]) before =
        .next (guarded 0x14 index (fun y => { y with entries := y.entries.alter a (fun _ => some e) }))) ∧
    (∀ (index : Half) (a : Actuator), index.toNat = 256 * (g.val + 1) + (a.val + 1) →
      exec (.pageAct index []) before =
        .next (guarded 0x14 index (fun y => { y with entries := y.entries.alter a (fun _ => none) })))) ∧
  (∀ (before : State) (index : Half) (args : List Word),
    let s := before.finishBlock
    let group := fun code : ResultCode => exec (.pageGroup index args) before = .next (s.answered 0x13 index code [])
    let act := fun code : ResultCode => exec (.pageAct index args) before = .next (s.answered 0x14 index code [])
    (s.service.page = none → group .noPage ∧ act .noPage) ∧
    (s.service.page ≠ none →
      (index = 0 ∨ 6 < index.toNat → group .badIndex) ∧
      (index ≠ 0 → index.toNat ≤ 6 → args ≠ [] →
        (∀ step limit : Nat, step ≤ 16384 → limit ≤ 6400000 → args ≠ [natWord step, natWord limit]) → group .badValue) ∧
      ((∀ (g : Group) (a : Actuator), index.toNat ≠ 256 * (g.val + 1) + (a.val + 1)) → act .badIndex) ∧
      (∀ (g : Group) (a : Actuator), index.toNat = 256 * (g.val + 1) + (a.val + 1) → args ≠ [] →
        (∀ e : PageEntry, -400000 ≤ e.mean → e.mean ≤ 400000 → e.amplitude ≤ 200000 → -400000 ≤ e.fmin →
          e.fmin ≤ e.fmax → e.fmax ≤ 400000 → 1 ≤ e.slew → e.slew ≤ 65535 →
          args ≠ [natWord e.mode.toCode, intWord e.mean, natWord e.amplitude, natWord e.offset.toNat,
            natWord e.shape.val, intWord e.fmin, intWord e.fmax, natWord e.slew]) → act .badValue)))

/-- R58: a page made pending. R50, R51: sixteen entries of a shape table written, unless a group that is not OFF has an entry
naming the table in its active or its pending page. Both refused for an index that names no place and for words out of their
ranges. The raises that a return-lane block still owes are handed over first (R165; that they stand owed is the model's
choice, log 9). -/
def Obligations.CommitAndShape : Prop :=
  (∀ (before : State) (index : Half) (g : Group) (p : Fin 4),
     let s := before.finishBlock
     index.toNat = g.val + 1 →
     exec (.commit index [natWord p.val]) before = .next
       (if (s.pages.entry g).pendingPage ≠ none then s.answered 0x20 index .commitBusy []
       else if ∃ a : Actuator, (s.actuator a).group = some g ∧ (s.page g p).entries.entry a = none then
         s.answered 0x20 index .incomplete []
       else if (s.pages.entry g).active = p then s.answered 0x20 index .pageActive []
       else (s.onPages g (fun y => { y with pendingPage := some p })).answered 0x20 index .ok [])) ∧
  (∀ (before : State) (t : Fin 4) (k : Fin 16) (entries : Fin 16 → Int),
     let s := before.finishBlock
     (∀ i : Fin 16, -32767 ≤ entries i ∧ entries i ≤ 32767) →
     let index : Half := BitVec.ofNat 16 (256 * t.val + 16 * k.val)
     let word := fun i j : Fin 16 => packPair (entries i) (entries j)
     exec (.shape index [word 0 1, word 2 3, word 4 5, word 6 7, word 8 9, word 10 11, word 12 13, word 14 15]) before =
       .next (if ∃ (g : Group) (p : Fin 4) (a : Actuator), s.groupState g ≠ .off ∧
           (p = (s.pages.entry g).active ∨ some p = (s.pages.entry g).pendingPage) ∧
           ((s.page g p).entries.entry a).map (·.shape) = some t then
         s.answered 0x15 index .shapeInUse []
       else
         ({ s with shapes := s.shapes.alter t (fun table => table.alterAll (fun i x =>
             if h : 16 * k.val ≤ i.val ∧ i.val < 16 * k.val + 16 then entries ⟨i.val - 16 * k.val, by omega⟩ else x))
           }).answered 0x15 index .ok [])) ∧
  (∀ (before : State) (index : Half) (args : List Word),
     let s := before.finishBlock
     let commit := fun code : ResultCode => exec (.commit index args) before = .next (s.answered 0x20 index code [])
     let shape := fun code : ResultCode => exec (.shape index args) before = .next (s.answered 0x15 index code [])
     (index = 0 ∨ 6 < index.toNat → commit .badIndex) ∧
     (index ≠ 0 → index.toNat ≤ 6 → (∀ p : Fin 4, args ≠ [natWord p.val]) → commit .badValue) ∧
     ((∀ (t : Fin 4) (k : Fin 16), index.toNat ≠ 256 * t.val + 16 * k.val) → shape .badIndex) ∧
     (∀ (t : Fin 4) (k : Fin 16), index.toNat = 256 * t.val + 16 * k.val →
       (∀ entries : Fin 16 → Int, (∀ i : Fin 16, -32767 ≤ entries i ∧ entries i ≤ 32767) →
         args ≠ (List.finRange 8).map (fun j =>
           packPair (entries ⟨2 * j.val, by omega⟩) (entries ⟨2 * j.val + 1, by omega⟩))) → shape .badValue))

/-- R62, R64, R65: an entry of the block schedule written, the last one removed, and the schedule begun afresh, in a group
that is OFF, in HOLD or in REST; and refused for an index that names no place, for words out of their ranges, and, after
these, in ENGAGING, RUN and UNLOAD. The raises that a return-lane block still owes are handed over first (R165; that they
stand owed is the model's choice, log 9). -/
def Obligations.ScheduleCommands : Prop :=
  (∀ (before : State) (g : Group),
    let s := before.finishBlock
    s.groupState g = .off ∨ s.groupState g = .hold ∨ s.groupState g = .rest →
    let c := s.cycles.entry g
    (∀ (index : Half) (k : Nat) (e : BlockEntry), index.toNat = 256 * (g.val + 1) + k → k ≤ 15 →
      k ≤ c.schedule.length → 1 ≤ e.target → e.target ≤ 16777215 →
      exec (.block index [natWord e.target, natWord e.page.val, natWord e.endAction.toCode]) before = .next
        (if s.lead g = none ∧ (c.schedule = [] ∨ (k = c.pointer ∧ k < c.schedule.length)) ∧ e.target ≤ c.block then
          s.answered 0x1A index .badValue []
        else
          (s.onCycles g (fun x =>
            { x with schedule := if k < x.schedule.length then x.schedule.set k e else x.schedule ++ [e] })).answered
            0x1A index .ok [])) ∧
    (∀ (index : Half) (k : Nat), index.toNat = 256 * (g.val + 1) + k → k ≤ 15 → k + 1 = c.schedule.length →
      exec (.block index []) before = .next
        ((s.onAllCycles (fun h x =>
          { x with
            schedule := if h = g then x.schedule.dropLast else x.schedule
            pointer := if h = g ∧ c.pointer = k then 0 else x.pointer
            block := if c.pointer = k ∧ s.lead g = none ∧ (h = g ∨ s.lead h = some g) then 0 else x.block })).answered
          0x1A index .ok [])) ∧
    (∀ index : Half, index.toNat = g.val + 1 → exec (.resetSchedule index []) before = .next
      (((s.onAllCycles (fun h x =>
        if h = g then { x with total := 0, block := 0, pointer := 0 }
        else if s.lead h = some g then { x with block := 0 } else x)).onShape g
          (fun x => { x with theta := 0 })).answered 0x26 index .ok []))) ∧
  (∀ (before : State) (index : Half) (args : List Word),
    let s := before.finishBlock
    let block := fun code : ResultCode => exec (.block index args) before = .next (s.answered 0x1A index code [])
    let restart := fun code : ResultCode =>
      exec (.resetSchedule index args) before = .next (s.answered 0x26 index code [])
    let moving := fun g : Group => s.groupState g = .engaging ∨ s.groupState g = .run ∨ s.groupState g = .unload
    (index.toNat < 256 ∨ 7 * 256 ≤ index.toNat → block .badIndex) ∧
    (∀ (g : Group) (k : Nat), index.toNat = 256 * (g.val + 1) + k → k ≤ 255 →
      let count := (s.cycles.entry g).schedule.length
      let reads := fun e : BlockEntry => 1 ≤ e.target ∧ e.target ≤ 16777215 ∧
        args = [natWord e.target, natWord e.page.val, natWord e.endAction.toCode]
      (args = [] → k + 1 ≠ count → block .badIndex) ∧
      (args = [] → k + 1 = count → moving g → block .state) ∧
      (args ≠ [] → 15 < k ∨ count < k → block .badIndex) ∧
      (args ≠ [] → k ≤ 15 → k ≤ count → (∀ e : BlockEntry, ¬reads e) → block .badValue) ∧
      (∀ e : BlockEntry, reads e → k ≤ 15 → k ≤ count → moving g → block .state)) ∧
    (index = 0 ∨ 6 < index.toNat → restart .badIndex) ∧
    (∀ g : Group, index.toNat = g.val + 1 →
      (args ≠ [] → restart .badValue) ∧ (args = [] → moving g → restart .state)))

/-- R97, R104, R105: the calibration and limit records of a strain channel written and cleared. R116, R117, R127: the record
of a crack channel and of a coincidence set written and cleared; the bytes of a set that name no member may stand anywhere
among the eight. Each refused for an index that names none and for words out of their ranges. R98, R118: the raises that a
return-lane block still owes are handed over first (that they stand owed is the model's choice, log 9). -/
def Obligations.ChannelRecordsWritten : Prop :=
  let names := fun (r : CoincidenceRecord) (members : List Word) => ∃ w6 w7 : Word, members = [w6, w7] ∧
    (wordBytes w6 ++ wordBytes w7).filter (fun b => b != 255) = r.members.map (fun k => BitVec.ofNat 8 k.val)
  (∀ (before : State) (index : Half) (c : Fin 256),
     let s := before.finishBlock
     index.toNat = c.val →
     (∀ r : Calibration, -8388608 ≤ r.zero → r.zero ≤ 8388607 → 1 ≤ r.gain → r.gain ≤ 16777215 →
       exec (.cal index [intWord r.zero, natWord r.gain, optWord (r.comp.map (·.val)) 65535]) before = .next
         (if ∃ d : Fin 256, r.comp = some d ∧ (d = c ∨ (s.strain.entry d).cal.bind (·.comp) ≠ none
             ∨ ∃ e : Fin 256, e ≠ c ∧ (s.strain.entry e).cal.bind (·.comp) = some c) then
           s.answered 0x16 index .chain []
         else (s.onStrain c (fun ch => { ch with cal := some r })).answered 0x16 index .ok [])) ∧
     exec (.cal index []) before = .next ((s.onStrain c (fun ch => { ch with cal := none })).answered 0x16 index .ok []) ∧
     (∀ r : LimitRecord, -50000 ≤ r.stopLow → r.stopLow ≤ r.warnLow → r.warnLow < r.warnHigh →
       r.warnHigh ≤ r.stopHigh → r.stopHigh ≤ 50000 → r.hysteresis ≤ 5000 →
       2 * (r.hysteresis : Int) ≤ r.warnHigh - r.warnLow → 1 ≤ r.debounce → r.debounce ≤ 15 → r.level ≤ 7 →
       exec (.limit index [intWord r.warnLow, intWord r.warnHigh, intWord r.stopLow, intWord r.stopHigh,
         natWord r.hysteresis, natWord r.debounce, natWord r.level, natWord r.action.toCode, natWord r.mask.toNat,
         boolWord r.capture]) before = .next
         ((s.onStrain c (fun ch => { ch with limit := some r, debounce := 0, run := none })).answered 0x17 index .ok [])) ∧
     exec (.limit index []) before = .next
       ((s.onStrain c (fun ch =>
         { ch with limit := none, watch := .normal, debounce := 0, run := none, armed := true })).answered
         0x17 index .ok [])) ∧
  ((∀ (before : State) (index : Half) (k : Fin 64),
      let s := before.finishBlock
      index.toNat = k.val →
     let reset := fun (r : Option CrackRecord) (ch : CrackChannel) =>
       { ch with
         record := r, condition := false, sensorFault := false, debounce := 0, accumulator := 0, armed := true }
     (∀ r : CrackRecord, 1 ≤ r.debounce → r.debounce ≤ 15 → 1 ≤ r.decay → r.decay ≤ 8 → 1 ≤ r.threshold →
       r.threshold ≤ 16777215 → r.level ≤ 7 →
       exec (.crack index [natWord r.kind.toCode, natWord r.debounce, natWord r.decay, natWord r.threshold,
         natWord r.level, natWord r.action.toCode, natWord r.mask.toNat, boolWord r.capture]) before = .next
         ((s.onCrack k (fun ch =>
           if ch.record.map (·.kind) = some r.kind then { ch with record := some r, debounce := 0 }
           else reset (some r) ch)).answered 0x18 index .ok [])) ∧
     exec (.crack index []) before = .next ((s.onCrack k (reset none)).answered 0x18 index .ok [])) ∧
   (∀ (before : State) (index : Half) (n : Fin 8),
      let s := before.finishBlock
      index.toNat = n.val + 1 →
     (∀ (r : CoincidenceRecord) (members : List Word), members = memberWords r.members ∨ names r members →
       r.members ≠ [] → r.members.Nodup → r.members.length ≤ 8 → 1 ≤ r.minimum →
       r.minimum ≤ r.members.length → r.level ≤ 7 →
       exec (.coinc index ([natWord r.minimum, natWord r.level, natWord r.action.toCode, natWord r.mask.toNat,
         boolWord r.capture] ++ members)) before = .next
         ((s.onSet n (fun st => { st with record := some r })).answered 0x19 index .ok [])) ∧
     exec (.coinc index []) before = .next
       ((s.onSet n (fun _ => { record := none, armed := true, lastCount := 0 })).answered 0x19 index .ok []))) ∧
  (∀ (before : State) (index : Half) (args : List Word),
     let s := before.finishBlock
     let cal := fun code : ResultCode => exec (.cal index args) before = .next (s.answered 0x16 index code [])
     let limit := fun code : ResultCode => exec (.limit index args) before = .next (s.answered 0x17 index code [])
     let crack := fun code : ResultCode => exec (.crack index args) before = .next (s.answered 0x18 index code [])
     let coinc := fun code : ResultCode => exec (.coinc index args) before = .next (s.answered 0x19 index code [])
     (255 < index.toNat → cal .badIndex ∧ limit .badIndex) ∧
     (63 < index.toNat → crack .badIndex) ∧
     (index = 0 ∨ 8 < index.toNat → coinc .badIndex) ∧
     (index.toNat ≤ 255 → args ≠ [] →
       ((∀ r : Calibration, -8388608 ≤ r.zero → r.zero ≤ 8388607 → 1 ≤ r.gain → r.gain ≤ 16777215 →
         args ≠ [intWord r.zero, natWord r.gain, optWord (r.comp.map (·.val)) 65535]) → cal .badValue) ∧
       ((∀ r : LimitRecord, -50000 ≤ r.stopLow → r.stopLow ≤ r.warnLow → r.warnLow < r.warnHigh →
         r.warnHigh ≤ r.stopHigh → r.stopHigh ≤ 50000 → r.hysteresis ≤ 5000 →
         2 * (r.hysteresis : Int) ≤ r.warnHigh - r.warnLow → 1 ≤ r.debounce → r.debounce ≤ 15 → r.level ≤ 7 →
         args ≠ [intWord r.warnLow, intWord r.warnHigh, intWord r.stopLow, intWord r.stopHigh, natWord r.hysteresis,
           natWord r.debounce, natWord r.level, natWord r.action.toCode, natWord r.mask.toNat, boolWord r.capture]) →
         limit .badValue)) ∧
     (index.toNat ≤ 63 → args ≠ [] →
       (∀ r : CrackRecord, 1 ≤ r.debounce → r.debounce ≤ 15 → 1 ≤ r.decay → r.decay ≤ 8 → 1 ≤ r.threshold →
         r.threshold ≤ 16777215 → r.level ≤ 7 →
         args ≠ [natWord r.kind.toCode, natWord r.debounce, natWord r.decay, natWord r.threshold, natWord r.level,
           natWord r.action.toCode, natWord r.mask.toNat, boolWord r.capture]) → crack .badValue) ∧
     (index ≠ 0 → index.toNat ≤ 8 → args ≠ [] →
       (∀ (r : CoincidenceRecord) (members : List Word), names r members → r.members ≠ [] → r.members.Nodup →
         1 ≤ r.minimum → r.minimum ≤ r.members.length → r.level ≤ 7 →
         args ≠ [natWord r.minimum, natWord r.level, natWord r.action.toCode, natWord r.mask.toNat, boolWord r.capture] ++
           members) → coinc .badValue))

/-- R138, R149, R152, R161: the notice floor, the capture settings, a marker line and the sweep watch set; without words the
last three return to their reset settings. Each refused for an index that names none and for words out of their ranges. R151,
R156: in bypass a line keeps its reset condition and the sweep watch its reset settings, and a MARKER or a WATCH command of
its own leaves the state as it stands (log 1). The raises that a return-lane block still owes are handed over first (R165;
that they stand owed is the model's choice, log 9). That a bad index of FLOOR comes before bad words is the model's choice too
(log 30). -/
def Obligations.SettingsWritten : Prop :=
  (∀ (before : State) (f : Nat),
    let s := before.finishBlock
    f ≤ 7 →
    exec (.floor 0 [natWord f]) before = .next ({ s with alarm := { s.alarm with floor := f } }.answered 0x1E 0 .ok [])) ∧
  (∀ (before : State) (mark : Nat) (cs : List (Fin 256)) (args : List Word),
    let s := before.finishBlock
    1 ≤ mark → mark ≤ 32 → cs.length ≤ 4 → cs.Nodup →
    args = natWord mark :: cs.map (fun c => natWord c.val) ∨ (args = [] ∧ mark = 32 ∧ cs = []) →
    exec (.captureCfg 0 args) before = .next
      ({ s with captures := { s.captures with watermark := mark, watchList := cs } }.answered 0x1B 0 .ok [])) ∧
  (∀ (before : State) (index : Half) (l : Line) (m : MarkerLine) (args : List Word),
    let s := before.finishBlock
    s.outLane.bypass = false →
    index.toNat = l.val + 1 → m.group ≤ 6 → (m.kind.namesGroup = true → m.group ≠ 0) → 1 ≤ m.width → m.width ≤ 255 →
    m.timer = none →
    args = [natWord m.kind.toCode, natWord m.group, natWord m.width, boolWord m.activeLow] ∨
      (args = [] ∧ m = { kind := .none, group := 0, width := 1, activeLow := false, timer := none }) →
    exec (.marker index args) before = .next
      ((s.onMarker l (fun _ => m)).answered 0x1C index .ok [])) ∧
  (∀ (before : State) (index : Half) (args : List Word),
    let s := before.finishBlock
    s.outLane.bypass = true →
    exec (.marker index args) before = .next s ∧ exec (.watch index args) before = .next s) ∧
  (∀ (before : State) (c : WatchSettings) (args : List Word),
    let s := before.finishBlock
    s.outLane.bypass = false →
    2 ≤ c.interval → c.interval ≤ 250 → c.action ≠ .note → 1 ≤ c.level →
    c.level ≤ 7 → 250 ≤ c.period → c.period ≤ 10000 → c.period % 50 = 0 →
    args = [natWord c.interval, natWord c.action.toCode, natWord c.level, boolWord c.enable, natWord c.period] ∨
      (args = [] ∧ c = { interval := 20, action := .unload, level := 7, enable := false, period := 1000 }) →
    exec (.watch 0 args) before = .next
      ((s.onWatch (fun w =>
        if c.enable = false ∧ w.originating = true then
          { w with settings := c, originating := false, standTimer := none }
        else if c.enable = true ∧ w.originating = false ∧ w.state = .expired then
          { w with
            settings := c, originating := true, standTimer := some c.period, lastOriginated := w.lastController }
        else { w with settings := c })).answered 0x1D 0 .ok [])) ∧
  (∀ (before : State) (index : Half) (args : List Word),
    let s := before.finishBlock
    let floor := fun code : ResultCode => exec (.floor index args) before = .next (s.answered 0x1E index code [])
    let capture := fun code : ResultCode => exec (.captureCfg index args) before = .next (s.answered 0x1B index code [])
    let marker := fun code : ResultCode => exec (.marker index args) before = .next (s.answered 0x1C index code [])
    let watch := fun code : ResultCode => exec (.watch index args) before = .next (s.answered 0x1D index code [])
    (index ≠ 0 → floor .badIndex ∧ capture .badIndex) ∧
    (index = 0 →
      ((∀ f : Nat, f ≤ 7 → args ≠ [natWord f]) → floor .badValue) ∧
      (args ≠ [] →
        (∀ (mark : Nat) (cs : List (Fin 256)), 1 ≤ mark → mark ≤ 32 → cs.length ≤ 4 → cs.Nodup →
          args ≠ natWord mark :: cs.map (fun c => natWord c.val)) → capture .badValue)) ∧
    (s.outLane.bypass = false →
      (index = 0 ∨ 4 < index.toNat → marker .badIndex) ∧
      (index ≠ 0 → index.toNat ≤ 4 → args ≠ [] →
        (∀ m : MarkerLine, m.group ≤ 6 → (m.kind.namesGroup = true → m.group ≠ 0) → 1 ≤ m.width → m.width ≤ 255 →
          args ≠ [natWord m.kind.toCode, natWord m.group, natWord m.width, boolWord m.activeLow]) → marker .badValue) ∧
      (index ≠ 0 → watch .badIndex) ∧
      (index = 0 → args ≠ [] →
        (∀ c : WatchSettings, 2 ≤ c.interval → c.interval ≤ 250 → c.action ≠ .note → 1 ≤ c.level → c.level ≤ 7 →
          250 ≤ c.period → c.period ≤ 10000 → c.period % 50 = 0 →
          args ≠ [natWord c.interval, natWord c.action.toCode, natWord c.level, boolWord c.enable, natWord c.period]) →
        watch .badValue)))

/-- R140: an entry acknowledged, and a source without an entry. R170, R172: the sticky flags cleared; a restart made pending
and the frame ended. Each refused for an index that names nothing and for any word. The raises that a return-lane block still
owes are handed over first (R165; that they stand owed is the model's choice, log 9). That a bad index of CLEAR_FLAGS and
RESTART comes before argument words is the model's choice too (log 30). -/
def Obligations.AckClearFlagsRestart : Prop :=
  (∀ (before : State) (src : Source),
     let s := before.finishBlock
     let index : Half := BitVec.ofNat 16 src.number
     exec (.ack index []) before = .next
       (if ∃ e ∈ s.alarm.entries, e.source = src then
         { s with alarm := { s.alarm with
             entries := s.alarm.entries.filter (fun e => e.source != src) } }.answered 0x25 index .ok []
       else s.answered 0x25 index .notPending [])) ∧
  (∀ before : State,
     let s := before.finishBlock
     exec (.clearFlags 0 []) before = .next
       ({ s with
         captures := { s.captures with lost := false }
         service := { s.service with svcDrop := false }
         pages := s.pages.alterAll (fun _ y => { y with overridden := false }) }.answered 0x28 0 .ok []) ∧
     exec (.restart 0 []) before = .next
       ({ s with service := { s.service with restartPending := true, frameEnded := true } }.answered 0x2F 0 .ok [])) ∧
  (∀ (before : State) (index : Half) (args : List Word),
     let s := before.finishBlock
     let ack := fun code : ResultCode => exec (.ack index args) before = .next (s.answered 0x25 index code [])
     let others := fun code : ResultCode =>
       exec (.clearFlags index args) before = .next (s.answered 0x28 index code []) ∧
       exec (.restart index args) before = .next (s.answered 0x2F index code [])
     ((∀ src : Source, index.toNat ≠ src.number) → ack .badIndex) ∧
     (∀ src : Source, index.toNat = src.number → args ≠ [] → ack .badValue) ∧
     (index ≠ 0 → others .badIndex) ∧ (index = 0 → args ≠ [] → others .badValue))

/-- R142: READ_PENDING, its checks and its seven words. R137: the positions, by descending level and within a level by
ascending source number. The raises that a return-lane block still owes are handed over first (R165; that they stand owed is
the model's choice, log 9). That a position above 356 comes before argument words, and EMPTY after both, is the model's choice
too (log 30). -/
def Obligations.ReadPendingReturnsEntry : Prop :=
  ∀ (before : State) (index : Half) (args : List Word),
    let s := before.finishBlock
    exec (.readPending index args) before = .next
      (if 356 < index.toNat then s.answered 0x31 index .badIndex []
      else if args ≠ [] then s.answered 0x31 index .badValue []
      else
        match s.alarm.order[index.toNat]? with
        | none => s.answered 0x31 index .empty []
        | some e => s.answered 0x31 index .ok
            [natWord e.source.number, natWord e.level, natWord e.action.toCode, e.mask.setWidth 32,
             e.seq.setWidth 32, e.sweep.setWidth 32, natWord s.alarm.entries.length]) ∧
    ((s.alarm.order[index.toNat]? = none ↔ s.alarm.entries.length ≤ index.toNat)) ∧
    (s.alarm.floor = 0 → (∀ e ∈ s.alarm.entries, 1 ≤ e.level) → s.alarm.order[0]? = s.alarm.presented) ∧
    s.alarm.order.Pairwise (fun e f => f.level < e.level ∨ (f.level = e.level ∧ e.source.number ≤ f.source.number))

/-- R148: CAPTURE, its checks and the word it returns. R145 to R147: the record that a MANUAL capture stores, and its loss to
a full log. The raises that a return-lane block still owes are handed over first (R165; that they stand owed is the model's
choice, log 9). That a bad index comes before argument words is the model's choice too (log 30). -/
def Obligations.CaptureCommand : Prop :=
  ∀ (before : State) (index : Half) (args : List Word),
    let s := before.finishBlock
    (index ≠ 0 → exec (.capture index args) before = .next (s.answered 0x27 index .badIndex [])) ∧
    (index = 0 → args ≠ [] → exec (.capture index args) before = .next (s.answered 0x27 0 .badValue [])) ∧
    (index = 0 → args = [] → s.captures.queue.length < 32 →
      ∃ q : CaptureRecord, q.seq = s.captures.nextSeq ∧ q.trigger = .manual ∧ q.sweep = s.shaper.lastTaken ∧
        (∀ g : Group, q.states.entry g = s.groupState g ∧ q.totals.entry g = (s.cycles.entry g).total
          ∧ q.pointers.entry g = (s.cycles.entry g).pointer) ∧
        q.outputs = allActuators.filterMap (fun a => (s.output a).kept.map (fun force => (a, force))) ∧
        q.strains = s.captures.watchList.filterMap (fun c =>
          (s.strain.entry c).latest.map (fun v => (c, v.1, v.2))) ∧
        exec (.capture index args) before = .next
          ({ s with
            captures := { s.captures with
              queue := s.captures.queue ++ [q], nextSeq := s.captures.nextSeq + 1 }
            markers := s.markers.alterAll (fun _ (m : MarkerLine) =>
              if m.kind = MarkerKind.capture then { m with timer := some m.width } else m) }.answered
            0x27 0 .ok [s.captures.nextSeq.setWidth 32])) ∧
    (index = 0 → args = [] → 32 ≤ s.captures.queue.length →
      exec (.capture index args) before = .next
        ({ s with captures := { s.captures with lost := true } }.answered 0x27 0 .ok [65536]))

/-- R150: READ_CAPTURE: the words of each part of the oldest record, and its removal where the index asks for it; its
refusals, and the empty queue. The raises that a return-lane block still owes are handed over first (R165; that they stand
owed is the model's choice, log 9). That a bad index comes before argument words, and EMPTY after both, is the model's choice
too (log 30). -/
def Obligations.ReadCaptureReturnsOldest : Prop :=
  (∀ (before : State) (r : CaptureRecord) (rest : List CaptureRecord) (part : Nat) (remove : Bool),
     let s := before.finishBlock
     s.captures.queue = r :: rest → part ≤ 5 →
     let index : Half := BitVec.ofNat 16 (part + if remove = true then 256 else 0)
     let packed := fun f : Group → Nat =>
       natWord (f 0 + f 1 * 16 + f 2 * 256 + f 3 * 4096 + f 4 * 65536 + f 5 * 1048576)
     let pairs := fun ps : List (Actuator × Int) => (ps.map (fun p => [natWord (p.1.val + 1), intWord p.2])).flatten
     let words : List Word := match part with
       | 0 => [r.seq.setWidth 32] ++ (match r.trigger with
           | .raised src seq => [0, natWord src.number, seq.setWidth 32, 0]
           | .block g => [1, 65535, 0, natWord (g.val + 1)]
           | .manual => [2, 65535, 0, 0]) ++
           [r.sweep.setWidth 32,
            packed (fun g => match r.states.entry g with
              | .off => 0 | .engaging => 1 | .run => 2 | .hold => 3 | .unload => 4 | .rest => 5),
            packed (fun g => r.pointers.entry g), natWord r.outputs.length, natWord r.strains.length,
            natWord (rest.length + 1)]
       | 1 => allGroups.map (fun g => natWord (r.totals.entry g))
       | 2 => pairs (r.outputs.take 6)
       | 3 => pairs ((r.outputs.drop 6).take 6)
       | 4 => pairs (r.outputs.drop 12)
       | _ => (r.strains.map (fun t => [natWord t.1.val, intWord t.2.1, natWord t.2.2.toCode])).flatten
     exec (.readCapture index []) before = .next
       ((if remove = true then { s with captures := { s.captures with queue := rest } } else s).answered
         0x32 index .ok words)) ∧
  (∀ (before : State) (index : Half) (args : List Word),
     let s := before.finishBlock
     let named := index.toNat ≤ 5 ∨ (256 ≤ index.toNat ∧ index.toNat ≤ 261)
     let refused := fun code : ResultCode =>
       exec (.readCapture index args) before = .next (s.answered 0x32 index code [])
     (¬named → refused .badIndex) ∧
     (named → args ≠ [] → refused .badValue) ∧
     (named → args = [] → s.captures.queue = [] → refused .empty))

/-- R169: READ changes nothing that it reads, and its checks come in their order; the words and the indexes of its 23 views
(R4, R52, R73, R95, R114, R130, R143, R155, R162, R169). The raises that a return-lane block still owes are handed over
first (R165; that they stand owed is the model's choice, log 9). -/
def Obligations.ReadReturnsViews : Prop :=
  (∀ (before : State) (index : Half) (args : List Word),
     let s := before.finishBlock
     ∃ (code : ResultCode) (words : List Word),
    exec (.read index args) before = .next (s.answered 0x30 index code words) ∧ words.length ≤ 12 ∧
    (code ≠ .ok → words = [])) ∧
  (∀ (before : State) (index : Half) (args : List Word),
     let s := before.finishBlock
     (∀ k : Word, args = [k] → k.toNat = 0 ∨ 23 < k.toNat) →
    exec (.read index args) before = .next (s.answered 0x30 index .badValue [])) ∧
  (∀ (before : State) (index : Half),
     let s := before.finishBlock
     let gives := fun (kind : Word) (words : List Word) =>
      exec (.read index [kind]) before = .next (s.answered 0x30 index .ok words)
    let refused := fun (kind : Word) (code : ResultCode) =>
      exec (.read index [kind]) before = .next (s.answered 0x30 index code [])
    (index = 0 →
      gives 1 [natWord s.outLane.badFrames, natWord s.retLane.badFrames] ∧
      gives 20 [natWord s.alarm.floor, s.alarm.counter.setWidth 32, natWord s.alarm.entries.length,
        natWord (match s.alarm.presented with
          | none => 511
          | some e => e.source.number)] ∧
      gives 21 ([natWord s.captures.queue.length, s.captures.nextSeq.setWidth 32, natWord s.captures.watermark,
          boolWord s.captures.lost, boolWord (decide (s.captures.watermark ≤ s.captures.queue.length)),
          natWord s.captures.watchList.length] ++
        [0, 1, 2, 3].map (fun i => match s.captures.watchList[i]? with
          | none => 65535
          | some c => natWord c.val)) ∧
      gives 23 [natWord s.watch.settings.interval, natWord s.watch.settings.action.toCode,
        natWord s.watch.settings.level, boolWord s.watch.settings.enable, natWord s.watch.settings.period,
        (match s.watch.state with | .disarmed => 0 | .running => 1 | .expired => 2), boolWord s.watch.originating,
        s.watch.lastOriginated ++ s.watch.lastController]) ∧
    (index ≠ 0 → refused 1 .badIndex ∧ refused 20 .badIndex ∧ refused 21 .badIndex ∧ refused 23 .badIndex) ∧
    (383 < index.toNat → refused 2 .badIndex) ∧
    (index.toNat ≤ 383 → s.slotMap.length ≤ index.toNat → refused 2 .empty) ∧
    (∀ b : Binding, index.toNat ≤ 383 → s.slotMap[index.toNat]? = some b →
      gives 2 [b.slot.setWidth 32, natWord b.role.code, natWord s.slotMap.length]) ∧
    (∀ (t : Fin 4) (k : Fin 16), index.toNat = 256 * t.val + 16 * k.val →
      gives 3 ((List.finRange 8).map (fun j =>
        packPair ((s.shapes.entry t).entry ⟨16 * k.val + 2 * j.val, by omega⟩)
          ((s.shapes.entry t).entry ⟨16 * k.val + 2 * j.val + 1, by omega⟩)))) ∧
    ((∀ (t : Fin 4) (k : Fin 16), index.toNat ≠ 256 * t.val + 16 * k.val) → refused 3 .badIndex) ∧
    (∀ a : Actuator, index.toNat = a.val + 1 →
      gives 4 [boolWord (s.output a).kept.isSome, intWord ((s.output a).kept.getD 0),
        natWord (s.output a).lastQuality.toCode, boolWord (s.output a).hold.isSome,
        intWord ((s.output a).hold.getD 0)] ∧
      gives 12 [natWord (numberOrZero (s.actuator a).group), intWord (s.actuator a).floor,
        natWord (s.actuator a).level, boolWord (s.actuator a).seed.isSome, intWord ((s.actuator a).seed.getD 0),
        boolWord (s.actuator a).armed]) ∧
    (index = 0 ∨ 16 < index.toNat → refused 4 .badIndex ∧ refused 12 .badIndex) ∧
    (∀ g : Group, index.toNat = g.val + 1 →
      let record := (s.lock g).record
      let y := s.pages.entry g
      gives 5 [(s.shape g).theta.setWidth 32, natWord (((s.lead g).getD g).val + 1), boolWord (s.shape g).cycling] ∧
      gives 7 [natWord y.active.val,
        (match y.pendingPage with
          | none => 4
          | some p => natWord p.val),
        boolWord y.overridden,
        boolWord (decide (∀ a : Actuator, (s.actuator a).group = some g → (s.activePage g).entries.entry a ≠ none))] ∧
      gives 8 [natWord (s.cycles.entry g).total, natWord (s.cycles.entry g).block,
        natWord (s.cycles.entry g).pointer, natWord (s.cycles.entry g).schedule.length,
        natWord (numberOrZero (s.lead g))] ∧
      gives 10 ([natWord (s.groupState g).toCode, natWord (s.lock g).engageCount] ++ (match (s.lock g).cause with
        | none => [0, 65535, 0]
        | some c =>
          [(match c.cause with
            | .command => 1 | .alarm => 2 | .timeout => 3 | .inspect => 4 | .incomplete => 5 | .sum => 6 | .drive => 7),
           (match c.source with
            | none => 65535
            | some src => natWord src.number),
           c.sweep.setWidth 32])) ∧
      gives 11 [natWord record.unloadRate, natWord record.engageInterval, natWord (numberOrZero record.lead),
        natWord record.sumLevel, natWord record.blockLevel]) ∧
    (index = 0 ∨ 6 < index.toNat →
      refused 5 .badIndex ∧ refused 7 .badIndex ∧ refused 8 .badIndex ∧ refused 10 .badIndex ∧ refused 11 .badIndex) ∧
    (s.service.page = none → refused 6 .noPage) ∧
    (∀ p : Fin 4, s.service.page = some p →
      (∀ g : Group, index.toNat = 256 * (g.val + 1) →
        gives 6 [natWord (s.page g p).step, natWord (s.page g p).sumLimit]) ∧
      (∀ (g : Group) (a : Actuator), index.toNat = 256 * (g.val + 1) + (a.val + 1) →
        gives 6 (match (s.page g p).entries.entry a with
          | none => [0, 0, 0, 0, 0, 0, 0, 0, 0]
          | some e => [1, natWord e.mode.toCode, intWord e.mean, natWord e.amplitude, e.offset.setWidth 32,
              natWord e.shape.val, intWord e.fmin, intWord e.fmax, natWord e.slew])) ∧
      ((∀ (g : Group) (n : Nat), n ≤ 16 → index.toNat ≠ 256 * (g.val + 1) + n) → refused 6 .badIndex)) ∧
    (∀ (g : Group) (n : Nat), n ≤ 15 → index.toNat = 256 * (g.val + 1) + n →
      gives 9 (match (s.cycles.entry g).schedule[n]? with
        | none => [0, 0, 0, 0]
        | some e => [1, natWord e.target, natWord e.page.val, natWord e.endAction.toCode])) ∧
    ((∀ (g : Group) (n : Nat), n ≤ 15 → index.toNat ≠ 256 * (g.val + 1) + n) → refused 9 .badIndex) ∧
    (∀ c : Fin 256, index.toNat = c.val →
      let ch := s.strain.entry c
      gives 13 (match ch.cal with
        | none => [0, 0, 0, 65535]
        | some r => [1, intWord r.zero, natWord r.gain, (match r.comp with
            | none => 65535
            | some d => natWord d.val)]) ∧
      gives 14 (match ch.limit with
        | none => [0, 0, 0, 0, 0, 0, 0, 0, 0, 0, 0]
        | some r => [1, intWord r.warnLow, intWord r.warnHigh, intWord r.stopLow, intWord r.stopHigh,
            natWord r.hysteresis, natWord r.debounce, natWord r.level, natWord r.action.toCode, r.mask.setWidth 32,
            boolWord r.capture]) ∧
      gives 15 ([natWord ch.watch.toCode, natWord ch.debounce] ++ (match ch.run with
          | none => [0, 0]
          | some (.moreSevere, b) => [1, natWord b.toCode]
          | some (.lessSevere, b) => [2, natWord b.toCode]) ++ [natWord ch.warnCount] ++ (match ch.latest with
          | none => [0, 0, 0]
          | some v => [1, intWord v.1, natWord v.2.toCode]) ++ [boolWord ch.armed])) ∧
    (255 < index.toNat → refused 13 .badIndex ∧ refused 14 .badIndex ∧ refused 15 .badIndex) ∧
    (∀ k : Fin 64, index.toNat = k.val →
      let ch := s.crack.entry k
      gives 16 (match ch.record with
        | none => [0, 0, 0, 0, 0, 0, 0, 0, 0]
        | some r => [1, natWord r.kind.toCode, natWord r.debounce, natWord r.decay, natWord r.threshold,
            natWord r.level, natWord r.action.toCode, r.mask.setWidth 32, boolWord r.capture]) ∧
      gives 17 [boolWord ch.condition, boolWord ch.sensorFault, natWord ch.debounce, natWord ch.accumulator,
        boolWord ch.armed]) ∧
    (63 < index.toNat → refused 16 .badIndex ∧ refused 17 .badIndex) ∧
    (∀ n : Fin 8, index.toNat = n.val + 1 →
      gives 18 ((match (s.sets.entry n).record with
        | none => [0, 0, 0, 0, 0, 0, 0, 0]
        | some r => [1, natWord r.minimum, natWord r.level, natWord r.action.toCode, r.mask.setWidth 32,
            boolWord r.capture] ++ memberWords r.members) ++
        [natWord (s.sets.entry n).lastCount, boolWord (s.sets.entry n).armed])) ∧
    (index = 0 ∨ 8 < index.toNat → refused 18 .badIndex) ∧
    (∀ src : Source, index.toNat = src.number →
      (s.alarm.entry? src = none → gives 19 [0, 0, 0, 0, 0, 0]) ∧
      (∀ e : Entry, s.alarm.entry? src = some e →
        gives 19 [1, natWord e.level, natWord e.action.toCode, e.mask.setWidth 32, e.seq.setWidth 32,
          e.sweep.setWidth 32])) ∧
    ((∀ src : Source, index.toNat ≠ src.number) → refused 19 .badIndex) ∧
    (∀ l : Line, index.toNat = l.val + 1 →
      let m := s.markers.entry l
      gives 22 [natWord m.kind.toCode, natWord m.group, natWord m.width, boolWord m.activeLow,
        boolWord (s.lineActive l), boolWord m.timer.isSome]) ∧
    (index = 0 ∨ 4 < index.toNat → refused 22 .badIndex))

/-- R164, R165, R171: a service frame is consumed and applied whole: the items it holds are taken on the state with the
qualifier state of R167 begun afresh, then the orphan result, then the reply put at the tail of the queue, and RET-OUT begins
to send where it is free. With four replies standing it is dropped. R165: the raises that a return-lane block still owes are
handed over before it (log 9). That a checked frame which only waits on the return lane to be passed through is not yet ready,
so that the head reply begins at once where RET-OUT is free, is the model's choice (log 27). R166, R167: each item is taken as
the command that it stands for, and a code that stands for none is refused with UNKNOWN. R172: a RESTART that passes, and no
other item, ends the frame, and the items after it are not taken. R168: the orphan result; which item it names is the model's
reading (log 18). -/
def Obligations.ServiceFrameTaken : Prop :=
  (∀ (s : State) (w : Waiting) (rest : List Waiting), s.outLane.hand = none → s.outLane.waiting = w :: rest →
    w.bypassed = false → frameKind w.bytes = 0xA2 → byteAt w.bytes 3 = s.unit.nodeAddress.setWidth 8 →
    (∀ x : Waiting, rest.head? = some x → x.bypassed = false) →
    let consumed : State := { s with outLane := { s.outLane with waiting := rest } }
    (4 ≤ s.service.replies.length → exec .serviceFrame s = .next
      { consumed with service := { s.service with svcDrop := true } }) ∧
    (s.service.replies.length < 4 →
      let settled : State := match s.retLane.hand with
        | some (.processing sw map next owed) =>
          let raised := consumed.raisedAll owed
          { raised with retLane := { s.retLane with hand := some (.processing sw map next []) } }
        | _ => consumed
      let opened : State := { settled with
        service := { settled.service with page := none, quiet := false, results := [], frameEnded := false } }
      let items := serviceItems w.bytes
      let applied := (applyItems items opened).orphan items
      let results := applied.service.results
      let restart := applied.service.frameEnded
      let u := applied.queueReply (halfAt w.bytes 4)
      let t : State := match u.retLane.hand with
        | some (.sending _) => u
        | some (.ready b) => if u.service.replySending = true then u else
          { u with retLane := { u.retLane with hand := some (.sending b) } }
        | _ => { u with service := { u.service with replySending := true } }
      exec .serviceFrame s = .next t ∧
      t.service.replies = s.service.replies ++
        [{ bytes := replyBytes (s.unit.nodeAddress.setWidth 8) (halfAt w.bytes 4) results, restart := restart }] ∧
      results.length ≤ items.length ∧
      (restart = true → t.service.restartPending = true) ∧
      t.service.page = none ∧ t.service.quiet = false ∧ t.service.results = [] ∧
      t.outLane = { s.outLane with waiting := rest } ∧ t.unit.nodeAddress = s.unit.nodeAddress ∧
      t.pending = s.pending)) ∧
  (∀ (s : State) (it : Item) (rest : List Item),
    applyItems [] s = s ∧
    (s.service.frameEnded = false →
      let ends := it.code = 0x2F ∧ it.index = 0 ∧ it.args = []
      (ends → applyItems (it :: rest) s = applyItem it s) ∧
      (¬ends → applyItems (it :: rest) s = applyItems rest (applyItem it s) ∧
        (applyItem it s).service.frameEnded = false)) ∧
    (∀ c : Instr, itemOf? c = some it → exec c s = .next (applyItem it s.finishBlock)) ∧
    ((∀ c : Instr, itemOf? c ≠ some it) → applyItem it s = s.answered it.code it.index .unknown [])) ∧
  (∀ (s : State) (items : List Item),
    (s.service.frameEnded = true ∨ (s.service.page = none ∧ s.service.quiet = false) → s.orphan items = s) ∧
    (∀ (before after : List Item) (it : Item), items = before ++ it :: after → it.code = 0x01 ∨ it.code = 0x02 →
      (∀ x ∈ after, x.code ≠ 0x01 ∧ x.code ≠ 0x02) → s.service.frameEnded = false →
      s.service.page ≠ none ∨ s.service.quiet = true →
      s.orphan items = { s with service := { s.service with results := s.service.results ++
        [{ code := it.code, result := .orphan, index := it.index, words := [] }] } }))
end

