-- ==== Sys2Proof/Laws/State.lean ====
section
/-! SUPPORT. What each named update of the state leaves in each field, and in each reading: one lemma each, all by `rfl` but for
those about the entry at a number. -/

namespace Sys2Proof.Machine

open Sys2Proof

variable (s : State)

/-! ### onLock -/

@[simp] theorem State.onLock_pending (g : Group) (f : GroupLock → GroupLock) : (s.onLock g f).pending = s.pending := rfl
@[simp] theorem State.onLock_unit (g : Group) (f : GroupLock → GroupLock) : (s.onLock g f).unit = s.unit := rfl
@[simp] theorem State.onLock_outLane (g : Group) (f : GroupLock → GroupLock) : (s.onLock g f).outLane = s.outLane := rfl
@[simp] theorem State.onLock_retLane (g : Group) (f : GroupLock → GroupLock) : (s.onLock g f).retLane = s.retLane := rfl
@[simp] theorem State.onLock_slotMap (g : Group) (f : GroupLock → GroupLock) : (s.onLock g f).slotMap = s.slotMap := rfl
@[simp] theorem State.onLock_shaper (g : Group) (f : GroupLock → GroupLock) : (s.onLock g f).shaper = s.shaper := rfl
@[simp] theorem State.onLock_pages (g : Group) (f : GroupLock → GroupLock) : (s.onLock g f).pages = s.pages := rfl
@[simp] theorem State.onLock_shapes (g : Group) (f : GroupLock → GroupLock) : (s.onLock g f).shapes = s.shapes := rfl
@[simp] theorem State.onLock_cycles (g : Group) (f : GroupLock → GroupLock) : (s.onLock g f).cycles = s.cycles := rfl
@[simp] theorem State.onLock_interlock (g : Group) (f : GroupLock → GroupLock) : (s.onLock g f).interlock = { s.interlock with groups := s.interlock.groups.alter g f } := rfl
@[simp] theorem State.onLock_strain (g : Group) (f : GroupLock → GroupLock) : (s.onLock g f).strain = s.strain := rfl
@[simp] theorem State.onLock_crack (g : Group) (f : GroupLock → GroupLock) : (s.onLock g f).crack = s.crack := rfl
@[simp] theorem State.onLock_sets (g : Group) (f : GroupLock → GroupLock) : (s.onLock g f).sets = s.sets := rfl
@[simp] theorem State.onLock_alarm (g : Group) (f : GroupLock → GroupLock) : (s.onLock g f).alarm = s.alarm := rfl
@[simp] theorem State.onLock_captures (g : Group) (f : GroupLock → GroupLock) : (s.onLock g f).captures = s.captures := rfl
@[simp] theorem State.onLock_markers (g : Group) (f : GroupLock → GroupLock) : (s.onLock g f).markers = s.markers := rfl
@[simp] theorem State.onLock_watch (g : Group) (f : GroupLock → GroupLock) : (s.onLock g f).watch = s.watch := rfl
@[simp] theorem State.onLock_service (g : Group) (f : GroupLock → GroupLock) : (s.onLock g f).service = s.service := rfl

/-! ### onActuator -/

@[simp] theorem State.onActuator_pending (a : Actuator) (f : ActuatorLock → ActuatorLock) : (s.onActuator a f).pending = s.pending := rfl
@[simp] theorem State.onActuator_unit (a : Actuator) (f : ActuatorLock → ActuatorLock) : (s.onActuator a f).unit = s.unit := rfl
@[simp] theorem State.onActuator_outLane (a : Actuator) (f : ActuatorLock → ActuatorLock) : (s.onActuator a f).outLane = s.outLane := rfl
@[simp] theorem State.onActuator_retLane (a : Actuator) (f : ActuatorLock → ActuatorLock) : (s.onActuator a f).retLane = s.retLane := rfl
@[simp] theorem State.onActuator_slotMap (a : Actuator) (f : ActuatorLock → ActuatorLock) : (s.onActuator a f).slotMap = s.slotMap := rfl
@[simp] theorem State.onActuator_shaper (a : Actuator) (f : ActuatorLock → ActuatorLock) : (s.onActuator a f).shaper = s.shaper := rfl
@[simp] theorem State.onActuator_pages (a : Actuator) (f : ActuatorLock → ActuatorLock) : (s.onActuator a f).pages = s.pages := rfl
@[simp] theorem State.onActuator_shapes (a : Actuator) (f : ActuatorLock → ActuatorLock) : (s.onActuator a f).shapes = s.shapes := rfl
@[simp] theorem State.onActuator_cycles (a : Actuator) (f : ActuatorLock → ActuatorLock) : (s.onActuator a f).cycles = s.cycles := rfl
@[simp] theorem State.onActuator_interlock (a : Actuator) (f : ActuatorLock → ActuatorLock) : (s.onActuator a f).interlock = { s.interlock with acts := s.interlock.acts.alter a f } := rfl
@[simp] theorem State.onActuator_strain (a : Actuator) (f : ActuatorLock → ActuatorLock) : (s.onActuator a f).strain = s.strain := rfl
@[simp] theorem State.onActuator_crack (a : Actuator) (f : ActuatorLock → ActuatorLock) : (s.onActuator a f).crack = s.crack := rfl
@[simp] theorem State.onActuator_sets (a : Actuator) (f : ActuatorLock → ActuatorLock) : (s.onActuator a f).sets = s.sets := rfl
@[simp] theorem State.onActuator_alarm (a : Actuator) (f : ActuatorLock → ActuatorLock) : (s.onActuator a f).alarm = s.alarm := rfl
@[simp] theorem State.onActuator_captures (a : Actuator) (f : ActuatorLock → ActuatorLock) : (s.onActuator a f).captures = s.captures := rfl
@[simp] theorem State.onActuator_markers (a : Actuator) (f : ActuatorLock → ActuatorLock) : (s.onActuator a f).markers = s.markers := rfl
@[simp] theorem State.onActuator_watch (a : Actuator) (f : ActuatorLock → ActuatorLock) : (s.onActuator a f).watch = s.watch := rfl
@[simp] theorem State.onActuator_service (a : Actuator) (f : ActuatorLock → ActuatorLock) : (s.onActuator a f).service = s.service := rfl

/-! ### onShape -/

@[simp] theorem State.onShape_pending (g : Group) (f : GroupShape → GroupShape) : (s.onShape g f).pending = s.pending := rfl
@[simp] theorem State.onShape_unit (g : Group) (f : GroupShape → GroupShape) : (s.onShape g f).unit = s.unit := rfl
@[simp] theorem State.onShape_outLane (g : Group) (f : GroupShape → GroupShape) : (s.onShape g f).outLane = s.outLane := rfl
@[simp] theorem State.onShape_retLane (g : Group) (f : GroupShape → GroupShape) : (s.onShape g f).retLane = s.retLane := rfl
@[simp] theorem State.onShape_slotMap (g : Group) (f : GroupShape → GroupShape) : (s.onShape g f).slotMap = s.slotMap := rfl
@[simp] theorem State.onShape_shaper (g : Group) (f : GroupShape → GroupShape) : (s.onShape g f).shaper = { s.shaper with groups := s.shaper.groups.alter g f } := rfl
@[simp] theorem State.onShape_pages (g : Group) (f : GroupShape → GroupShape) : (s.onShape g f).pages = s.pages := rfl
@[simp] theorem State.onShape_shapes (g : Group) (f : GroupShape → GroupShape) : (s.onShape g f).shapes = s.shapes := rfl
@[simp] theorem State.onShape_cycles (g : Group) (f : GroupShape → GroupShape) : (s.onShape g f).cycles = s.cycles := rfl
@[simp] theorem State.onShape_interlock (g : Group) (f : GroupShape → GroupShape) : (s.onShape g f).interlock = s.interlock := rfl
@[simp] theorem State.onShape_strain (g : Group) (f : GroupShape → GroupShape) : (s.onShape g f).strain = s.strain := rfl
@[simp] theorem State.onShape_crack (g : Group) (f : GroupShape → GroupShape) : (s.onShape g f).crack = s.crack := rfl
@[simp] theorem State.onShape_sets (g : Group) (f : GroupShape → GroupShape) : (s.onShape g f).sets = s.sets := rfl
@[simp] theorem State.onShape_alarm (g : Group) (f : GroupShape → GroupShape) : (s.onShape g f).alarm = s.alarm := rfl
@[simp] theorem State.onShape_captures (g : Group) (f : GroupShape → GroupShape) : (s.onShape g f).captures = s.captures := rfl
@[simp] theorem State.onShape_markers (g : Group) (f : GroupShape → GroupShape) : (s.onShape g f).markers = s.markers := rfl
@[simp] theorem State.onShape_watch (g : Group) (f : GroupShape → GroupShape) : (s.onShape g f).watch = s.watch := rfl
@[simp] theorem State.onShape_service (g : Group) (f : GroupShape → GroupShape) : (s.onShape g f).service = s.service := rfl

/-! ### onOutput -/

@[simp] theorem State.onOutput_pending (a : Actuator) (f : ActuatorOutput → ActuatorOutput) : (s.onOutput a f).pending = s.pending := rfl
@[simp] theorem State.onOutput_unit (a : Actuator) (f : ActuatorOutput → ActuatorOutput) : (s.onOutput a f).unit = s.unit := rfl
@[simp] theorem State.onOutput_outLane (a : Actuator) (f : ActuatorOutput → ActuatorOutput) : (s.onOutput a f).outLane = s.outLane := rfl
@[simp] theorem State.onOutput_retLane (a : Actuator) (f : ActuatorOutput → ActuatorOutput) : (s.onOutput a f).retLane = s.retLane := rfl
@[simp] theorem State.onOutput_slotMap (a : Actuator) (f : ActuatorOutput → ActuatorOutput) : (s.onOutput a f).slotMap = s.slotMap := rfl
@[simp] theorem State.onOutput_shaper (a : Actuator) (f : ActuatorOutput → ActuatorOutput) : (s.onOutput a f).shaper = { s.shaper with acts := s.shaper.acts.alter a f } := rfl
@[simp] theorem State.onOutput_pages (a : Actuator) (f : ActuatorOutput → ActuatorOutput) : (s.onOutput a f).pages = s.pages := rfl
@[simp] theorem State.onOutput_shapes (a : Actuator) (f : ActuatorOutput → ActuatorOutput) : (s.onOutput a f).shapes = s.shapes := rfl
@[simp] theorem State.onOutput_cycles (a : Actuator) (f : ActuatorOutput → ActuatorOutput) : (s.onOutput a f).cycles = s.cycles := rfl
@[simp] theorem State.onOutput_interlock (a : Actuator) (f : ActuatorOutput → ActuatorOutput) : (s.onOutput a f).interlock = s.interlock := rfl
@[simp] theorem State.onOutput_strain (a : Actuator) (f : ActuatorOutput → ActuatorOutput) : (s.onOutput a f).strain = s.strain := rfl
@[simp] theorem State.onOutput_crack (a : Actuator) (f : ActuatorOutput → ActuatorOutput) : (s.onOutput a f).crack = s.crack := rfl
@[simp] theorem State.onOutput_sets (a : Actuator) (f : ActuatorOutput → ActuatorOutput) : (s.onOutput a f).sets = s.sets := rfl
@[simp] theorem State.onOutput_alarm (a : Actuator) (f : ActuatorOutput → ActuatorOutput) : (s.onOutput a f).alarm = s.alarm := rfl
@[simp] theorem State.onOutput_captures (a : Actuator) (f : ActuatorOutput → ActuatorOutput) : (s.onOutput a f).captures = s.captures := rfl
@[simp] theorem State.onOutput_markers (a : Actuator) (f : ActuatorOutput → ActuatorOutput) : (s.onOutput a f).markers = s.markers := rfl
@[simp] theorem State.onOutput_watch (a : Actuator) (f : ActuatorOutput → ActuatorOutput) : (s.onOutput a f).watch = s.watch := rfl
@[simp] theorem State.onOutput_service (a : Actuator) (f : ActuatorOutput → ActuatorOutput) : (s.onOutput a f).service = s.service := rfl

/-! ### onOutputs -/

@[simp] theorem State.onOutputs_pending (f : Actuator → ActuatorOutput → ActuatorOutput) : (s.onOutputs f).pending = s.pending := rfl
@[simp] theorem State.onOutputs_unit (f : Actuator → ActuatorOutput → ActuatorOutput) : (s.onOutputs f).unit = s.unit := rfl
@[simp] theorem State.onOutputs_outLane (f : Actuator → ActuatorOutput → ActuatorOutput) : (s.onOutputs f).outLane = s.outLane := rfl
@[simp] theorem State.onOutputs_retLane (f : Actuator → ActuatorOutput → ActuatorOutput) : (s.onOutputs f).retLane = s.retLane := rfl
@[simp] theorem State.onOutputs_slotMap (f : Actuator → ActuatorOutput → ActuatorOutput) : (s.onOutputs f).slotMap = s.slotMap := rfl
@[simp] theorem State.onOutputs_shaper (f : Actuator → ActuatorOutput → ActuatorOutput) : (s.onOutputs f).shaper = { s.shaper with acts := s.shaper.acts.alterAll f } := rfl
@[simp] theorem State.onOutputs_pages (f : Actuator → ActuatorOutput → ActuatorOutput) : (s.onOutputs f).pages = s.pages := rfl
@[simp] theorem State.onOutputs_shapes (f : Actuator → ActuatorOutput → ActuatorOutput) : (s.onOutputs f).shapes = s.shapes := rfl
@[simp] theorem State.onOutputs_cycles (f : Actuator → ActuatorOutput → ActuatorOutput) : (s.onOutputs f).cycles = s.cycles := rfl
@[simp] theorem State.onOutputs_interlock (f : Actuator → ActuatorOutput → ActuatorOutput) : (s.onOutputs f).interlock = s.interlock := rfl
@[simp] theorem State.onOutputs_strain (f : Actuator → ActuatorOutput → ActuatorOutput) : (s.onOutputs f).strain = s.strain := rfl
@[simp] theorem State.onOutputs_crack (f : Actuator → ActuatorOutput → ActuatorOutput) : (s.onOutputs f).crack = s.crack := rfl
@[simp] theorem State.onOutputs_sets (f : Actuator → ActuatorOutput → ActuatorOutput) : (s.onOutputs f).sets = s.sets := rfl
@[simp] theorem State.onOutputs_alarm (f : Actuator → ActuatorOutput → ActuatorOutput) : (s.onOutputs f).alarm = s.alarm := rfl
@[simp] theorem State.onOutputs_captures (f : Actuator → ActuatorOutput → ActuatorOutput) : (s.onOutputs f).captures = s.captures := rfl
@[simp] theorem State.onOutputs_markers (f : Actuator → ActuatorOutput → ActuatorOutput) : (s.onOutputs f).markers = s.markers := rfl
@[simp] theorem State.onOutputs_watch (f : Actuator → ActuatorOutput → ActuatorOutput) : (s.onOutputs f).watch = s.watch := rfl
@[simp] theorem State.onOutputs_service (f : Actuator → ActuatorOutput → ActuatorOutput) : (s.onOutputs f).service = s.service := rfl

/-! ### onPages -/

@[simp] theorem State.onPages_pending (g : Group) (f : GroupPages → GroupPages) : (s.onPages g f).pending = s.pending := rfl
@[simp] theorem State.onPages_unit (g : Group) (f : GroupPages → GroupPages) : (s.onPages g f).unit = s.unit := rfl
@[simp] theorem State.onPages_outLane (g : Group) (f : GroupPages → GroupPages) : (s.onPages g f).outLane = s.outLane := rfl
@[simp] theorem State.onPages_retLane (g : Group) (f : GroupPages → GroupPages) : (s.onPages g f).retLane = s.retLane := rfl
@[simp] theorem State.onPages_slotMap (g : Group) (f : GroupPages → GroupPages) : (s.onPages g f).slotMap = s.slotMap := rfl
@[simp] theorem State.onPages_shaper (g : Group) (f : GroupPages → GroupPages) : (s.onPages g f).shaper = s.shaper := rfl
@[simp] theorem State.onPages_pages (g : Group) (f : GroupPages → GroupPages) : (s.onPages g f).pages = s.pages.alter g f := rfl
@[simp] theorem State.onPages_shapes (g : Group) (f : GroupPages → GroupPages) : (s.onPages g f).shapes = s.shapes := rfl
@[simp] theorem State.onPages_cycles (g : Group) (f : GroupPages → GroupPages) : (s.onPages g f).cycles = s.cycles := rfl
@[simp] theorem State.onPages_interlock (g : Group) (f : GroupPages → GroupPages) : (s.onPages g f).interlock = s.interlock := rfl
@[simp] theorem State.onPages_strain (g : Group) (f : GroupPages → GroupPages) : (s.onPages g f).strain = s.strain := rfl
@[simp] theorem State.onPages_crack (g : Group) (f : GroupPages → GroupPages) : (s.onPages g f).crack = s.crack := rfl
@[simp] theorem State.onPages_sets (g : Group) (f : GroupPages → GroupPages) : (s.onPages g f).sets = s.sets := rfl
@[simp] theorem State.onPages_alarm (g : Group) (f : GroupPages → GroupPages) : (s.onPages g f).alarm = s.alarm := rfl
@[simp] theorem State.onPages_captures (g : Group) (f : GroupPages → GroupPages) : (s.onPages g f).captures = s.captures := rfl
@[simp] theorem State.onPages_markers (g : Group) (f : GroupPages → GroupPages) : (s.onPages g f).markers = s.markers := rfl
@[simp] theorem State.onPages_watch (g : Group) (f : GroupPages → GroupPages) : (s.onPages g f).watch = s.watch := rfl
@[simp] theorem State.onPages_service (g : Group) (f : GroupPages → GroupPages) : (s.onPages g f).service = s.service := rfl

/-! ### onCycles -/

@[simp] theorem State.onCycles_pending (g : Group) (f : GroupCycles → GroupCycles) : (s.onCycles g f).pending = s.pending := rfl
@[simp] theorem State.onCycles_unit (g : Group) (f : GroupCycles → GroupCycles) : (s.onCycles g f).unit = s.unit := rfl
@[simp] theorem State.onCycles_outLane (g : Group) (f : GroupCycles → GroupCycles) : (s.onCycles g f).outLane = s.outLane := rfl
@[simp] theorem State.onCycles_retLane (g : Group) (f : GroupCycles → GroupCycles) : (s.onCycles g f).retLane = s.retLane := rfl
@[simp] theorem State.onCycles_slotMap (g : Group) (f : GroupCycles → GroupCycles) : (s.onCycles g f).slotMap = s.slotMap := rfl
@[simp] theorem State.onCycles_shaper (g : Group) (f : GroupCycles → GroupCycles) : (s.onCycles g f).shaper = s.shaper := rfl
@[simp] theorem State.onCycles_pages (g : Group) (f : GroupCycles → GroupCycles) : (s.onCycles g f).pages = s.pages := rfl
@[simp] theorem State.onCycles_shapes (g : Group) (f : GroupCycles → GroupCycles) : (s.onCycles g f).shapes = s.shapes := rfl
@[simp] theorem State.onCycles_cycles (g : Group) (f : GroupCycles → GroupCycles) : (s.onCycles g f).cycles = s.cycles.alter g f := rfl
@[simp] theorem State.onCycles_interlock (g : Group) (f : GroupCycles → GroupCycles) : (s.onCycles g f).interlock = s.interlock := rfl
@[simp] theorem State.onCycles_strain (g : Group) (f : GroupCycles → GroupCycles) : (s.onCycles g f).strain = s.strain := rfl
@[simp] theorem State.onCycles_crack (g : Group) (f : GroupCycles → GroupCycles) : (s.onCycles g f).crack = s.crack := rfl
@[simp] theorem State.onCycles_sets (g : Group) (f : GroupCycles → GroupCycles) : (s.onCycles g f).sets = s.sets := rfl
@[simp] theorem State.onCycles_alarm (g : Group) (f : GroupCycles → GroupCycles) : (s.onCycles g f).alarm = s.alarm := rfl
@[simp] theorem State.onCycles_captures (g : Group) (f : GroupCycles → GroupCycles) : (s.onCycles g f).captures = s.captures := rfl
@[simp] theorem State.onCycles_markers (g : Group) (f : GroupCycles → GroupCycles) : (s.onCycles g f).markers = s.markers := rfl
@[simp] theorem State.onCycles_watch (g : Group) (f : GroupCycles → GroupCycles) : (s.onCycles g f).watch = s.watch := rfl
@[simp] theorem State.onCycles_service (g : Group) (f : GroupCycles → GroupCycles) : (s.onCycles g f).service = s.service := rfl

/-! ### onAllCycles -/

@[simp] theorem State.onAllCycles_pending (f : Group → GroupCycles → GroupCycles) : (s.onAllCycles f).pending = s.pending := rfl
@[simp] theorem State.onAllCycles_unit (f : Group → GroupCycles → GroupCycles) : (s.onAllCycles f).unit = s.unit := rfl
@[simp] theorem State.onAllCycles_outLane (f : Group → GroupCycles → GroupCycles) : (s.onAllCycles f).outLane = s.outLane := rfl
@[simp] theorem State.onAllCycles_retLane (f : Group → GroupCycles → GroupCycles) : (s.onAllCycles f).retLane = s.retLane := rfl
@[simp] theorem State.onAllCycles_slotMap (f : Group → GroupCycles → GroupCycles) : (s.onAllCycles f).slotMap = s.slotMap := rfl
@[simp] theorem State.onAllCycles_shaper (f : Group → GroupCycles → GroupCycles) : (s.onAllCycles f).shaper = s.shaper := rfl
@[simp] theorem State.onAllCycles_pages (f : Group → GroupCycles → GroupCycles) : (s.onAllCycles f).pages = s.pages := rfl
@[simp] theorem State.onAllCycles_shapes (f : Group → GroupCycles → GroupCycles) : (s.onAllCycles f).shapes = s.shapes := rfl
@[simp] theorem State.onAllCycles_cycles (f : Group → GroupCycles → GroupCycles) : (s.onAllCycles f).cycles = s.cycles.alterAll f := rfl
@[simp] theorem State.onAllCycles_interlock (f : Group → GroupCycles → GroupCycles) : (s.onAllCycles f).interlock = s.interlock := rfl
@[simp] theorem State.onAllCycles_strain (f : Group → GroupCycles → GroupCycles) : (s.onAllCycles f).strain = s.strain := rfl
@[simp] theorem State.onAllCycles_crack (f : Group → GroupCycles → GroupCycles) : (s.onAllCycles f).crack = s.crack := rfl
@[simp] theorem State.onAllCycles_sets (f : Group → GroupCycles → GroupCycles) : (s.onAllCycles f).sets = s.sets := rfl
@[simp] theorem State.onAllCycles_alarm (f : Group → GroupCycles → GroupCycles) : (s.onAllCycles f).alarm = s.alarm := rfl
@[simp] theorem State.onAllCycles_captures (f : Group → GroupCycles → GroupCycles) : (s.onAllCycles f).captures = s.captures := rfl
@[simp] theorem State.onAllCycles_markers (f : Group → GroupCycles → GroupCycles) : (s.onAllCycles f).markers = s.markers := rfl
@[simp] theorem State.onAllCycles_watch (f : Group → GroupCycles → GroupCycles) : (s.onAllCycles f).watch = s.watch := rfl
@[simp] theorem State.onAllCycles_service (f : Group → GroupCycles → GroupCycles) : (s.onAllCycles f).service = s.service := rfl

/-! ### onStrain -/

@[simp] theorem State.onStrain_pending (c : Fin 256) (f : StrainChannel → StrainChannel) : (s.onStrain c f).pending = s.pending := rfl
@[simp] theorem State.onStrain_unit (c : Fin 256) (f : StrainChannel → StrainChannel) : (s.onStrain c f).unit = s.unit := rfl
@[simp] theorem State.onStrain_outLane (c : Fin 256) (f : StrainChannel → StrainChannel) : (s.onStrain c f).outLane = s.outLane := rfl
@[simp] theorem State.onStrain_retLane (c : Fin 256) (f : StrainChannel → StrainChannel) : (s.onStrain c f).retLane = s.retLane := rfl
@[simp] theorem State.onStrain_slotMap (c : Fin 256) (f : StrainChannel → StrainChannel) : (s.onStrain c f).slotMap = s.slotMap := rfl
@[simp] theorem State.onStrain_shaper (c : Fin 256) (f : StrainChannel → StrainChannel) : (s.onStrain c f).shaper = s.shaper := rfl
@[simp] theorem State.onStrain_pages (c : Fin 256) (f : StrainChannel → StrainChannel) : (s.onStrain c f).pages = s.pages := rfl
@[simp] theorem State.onStrain_shapes (c : Fin 256) (f : StrainChannel → StrainChannel) : (s.onStrain c f).shapes = s.shapes := rfl
@[simp] theorem State.onStrain_cycles (c : Fin 256) (f : StrainChannel → StrainChannel) : (s.onStrain c f).cycles = s.cycles := rfl
@[simp] theorem State.onStrain_interlock (c : Fin 256) (f : StrainChannel → StrainChannel) : (s.onStrain c f).interlock = s.interlock := rfl
@[simp] theorem State.onStrain_strain (c : Fin 256) (f : StrainChannel → StrainChannel) : (s.onStrain c f).strain = s.strain.alter c f := rfl
@[simp] theorem State.onStrain_crack (c : Fin 256) (f : StrainChannel → StrainChannel) : (s.onStrain c f).crack = s.crack := rfl
@[simp] theorem State.onStrain_sets (c : Fin 256) (f : StrainChannel → StrainChannel) : (s.onStrain c f).sets = s.sets := rfl
@[simp] theorem State.onStrain_alarm (c : Fin 256) (f : StrainChannel → StrainChannel) : (s.onStrain c f).alarm = s.alarm := rfl
@[simp] theorem State.onStrain_captures (c : Fin 256) (f : StrainChannel → StrainChannel) : (s.onStrain c f).captures = s.captures := rfl
@[simp] theorem State.onStrain_markers (c : Fin 256) (f : StrainChannel → StrainChannel) : (s.onStrain c f).markers = s.markers := rfl
@[simp] theorem State.onStrain_watch (c : Fin 256) (f : StrainChannel → StrainChannel) : (s.onStrain c f).watch = s.watch := rfl
@[simp] theorem State.onStrain_service (c : Fin 256) (f : StrainChannel → StrainChannel) : (s.onStrain c f).service = s.service := rfl

/-! ### onCrack -/

@[simp] theorem State.onCrack_pending (k : Fin 64) (f : CrackChannel → CrackChannel) : (s.onCrack k f).pending = s.pending := rfl
@[simp] theorem State.onCrack_unit (k : Fin 64) (f : CrackChannel → CrackChannel) : (s.onCrack k f).unit = s.unit := rfl
@[simp] theorem State.onCrack_outLane (k : Fin 64) (f : CrackChannel → CrackChannel) : (s.onCrack k f).outLane = s.outLane := rfl
@[simp] theorem State.onCrack_retLane (k : Fin 64) (f : CrackChannel → CrackChannel) : (s.onCrack k f).retLane = s.retLane := rfl
@[simp] theorem State.onCrack_slotMap (k : Fin 64) (f : CrackChannel → CrackChannel) : (s.onCrack k f).slotMap = s.slotMap := rfl
@[simp] theorem State.onCrack_shaper (k : Fin 64) (f : CrackChannel → CrackChannel) : (s.onCrack k f).shaper = s.shaper := rfl
@[simp] theorem State.onCrack_pages (k : Fin 64) (f : CrackChannel → CrackChannel) : (s.onCrack k f).pages = s.pages := rfl
@[simp] theorem State.onCrack_shapes (k : Fin 64) (f : CrackChannel → CrackChannel) : (s.onCrack k f).shapes = s.shapes := rfl
@[simp] theorem State.onCrack_cycles (k : Fin 64) (f : CrackChannel → CrackChannel) : (s.onCrack k f).cycles = s.cycles := rfl
@[simp] theorem State.onCrack_interlock (k : Fin 64) (f : CrackChannel → CrackChannel) : (s.onCrack k f).interlock = s.interlock := rfl
@[simp] theorem State.onCrack_strain (k : Fin 64) (f : CrackChannel → CrackChannel) : (s.onCrack k f).strain = s.strain := rfl
@[simp] theorem State.onCrack_crack (k : Fin 64) (f : CrackChannel → CrackChannel) : (s.onCrack k f).crack = s.crack.alter k f := rfl
@[simp] theorem State.onCrack_sets (k : Fin 64) (f : CrackChannel → CrackChannel) : (s.onCrack k f).sets = s.sets := rfl
@[simp] theorem State.onCrack_alarm (k : Fin 64) (f : CrackChannel → CrackChannel) : (s.onCrack k f).alarm = s.alarm := rfl
@[simp] theorem State.onCrack_captures (k : Fin 64) (f : CrackChannel → CrackChannel) : (s.onCrack k f).captures = s.captures := rfl
@[simp] theorem State.onCrack_markers (k : Fin 64) (f : CrackChannel → CrackChannel) : (s.onCrack k f).markers = s.markers := rfl
@[simp] theorem State.onCrack_watch (k : Fin 64) (f : CrackChannel → CrackChannel) : (s.onCrack k f).watch = s.watch := rfl
@[simp] theorem State.onCrack_service (k : Fin 64) (f : CrackChannel → CrackChannel) : (s.onCrack k f).service = s.service := rfl

/-! ### onSet -/

@[simp] theorem State.onSet_pending (n : Fin 8) (f : CoincidenceSet → CoincidenceSet) : (s.onSet n f).pending = s.pending := rfl
@[simp] theorem State.onSet_unit (n : Fin 8) (f : CoincidenceSet → CoincidenceSet) : (s.onSet n f).unit = s.unit := rfl
@[simp] theorem State.onSet_outLane (n : Fin 8) (f : CoincidenceSet → CoincidenceSet) : (s.onSet n f).outLane = s.outLane := rfl
@[simp] theorem State.onSet_retLane (n : Fin 8) (f : CoincidenceSet → CoincidenceSet) : (s.onSet n f).retLane = s.retLane := rfl
@[simp] theorem State.onSet_slotMap (n : Fin 8) (f : CoincidenceSet → CoincidenceSet) : (s.onSet n f).slotMap = s.slotMap := rfl
@[simp] theorem State.onSet_shaper (n : Fin 8) (f : CoincidenceSet → CoincidenceSet) : (s.onSet n f).shaper = s.shaper := rfl
@[simp] theorem State.onSet_pages (n : Fin 8) (f : CoincidenceSet → CoincidenceSet) : (s.onSet n f).pages = s.pages := rfl
@[simp] theorem State.onSet_shapes (n : Fin 8) (f : CoincidenceSet → CoincidenceSet) : (s.onSet n f).shapes = s.shapes := rfl
@[simp] theorem State.onSet_cycles (n : Fin 8) (f : CoincidenceSet → CoincidenceSet) : (s.onSet n f).cycles = s.cycles := rfl
@[simp] theorem State.onSet_interlock (n : Fin 8) (f : CoincidenceSet → CoincidenceSet) : (s.onSet n f).interlock = s.interlock := rfl
@[simp] theorem State.onSet_strain (n : Fin 8) (f : CoincidenceSet → CoincidenceSet) : (s.onSet n f).strain = s.strain := rfl
@[simp] theorem State.onSet_crack (n : Fin 8) (f : CoincidenceSet → CoincidenceSet) : (s.onSet n f).crack = s.crack := rfl
@[simp] theorem State.onSet_sets (n : Fin 8) (f : CoincidenceSet → CoincidenceSet) : (s.onSet n f).sets = s.sets.alter n f := rfl
@[simp] theorem State.onSet_alarm (n : Fin 8) (f : CoincidenceSet → CoincidenceSet) : (s.onSet n f).alarm = s.alarm := rfl
@[simp] theorem State.onSet_captures (n : Fin 8) (f : CoincidenceSet → CoincidenceSet) : (s.onSet n f).captures = s.captures := rfl
@[simp] theorem State.onSet_markers (n : Fin 8) (f : CoincidenceSet → CoincidenceSet) : (s.onSet n f).markers = s.markers := rfl
@[simp] theorem State.onSet_watch (n : Fin 8) (f : CoincidenceSet → CoincidenceSet) : (s.onSet n f).watch = s.watch := rfl
@[simp] theorem State.onSet_service (n : Fin 8) (f : CoincidenceSet → CoincidenceSet) : (s.onSet n f).service = s.service := rfl

/-! ### onMarker -/

@[simp] theorem State.onMarker_pending (l : Line) (f : MarkerLine → MarkerLine) : (s.onMarker l f).pending = s.pending := rfl
@[simp] theorem State.onMarker_unit (l : Line) (f : MarkerLine → MarkerLine) : (s.onMarker l f).unit = s.unit := rfl
@[simp] theorem State.onMarker_outLane (l : Line) (f : MarkerLine → MarkerLine) : (s.onMarker l f).outLane = s.outLane := rfl
@[simp] theorem State.onMarker_retLane (l : Line) (f : MarkerLine → MarkerLine) : (s.onMarker l f).retLane = s.retLane := rfl
@[simp] theorem State.onMarker_slotMap (l : Line) (f : MarkerLine → MarkerLine) : (s.onMarker l f).slotMap = s.slotMap := rfl
@[simp] theorem State.onMarker_shaper (l : Line) (f : MarkerLine → MarkerLine) : (s.onMarker l f).shaper = s.shaper := rfl
@[simp] theorem State.onMarker_pages (l : Line) (f : MarkerLine → MarkerLine) : (s.onMarker l f).pages = s.pages := rfl
@[simp] theorem State.onMarker_shapes (l : Line) (f : MarkerLine → MarkerLine) : (s.onMarker l f).shapes = s.shapes := rfl
@[simp] theorem State.onMarker_cycles (l : Line) (f : MarkerLine → MarkerLine) : (s.onMarker l f).cycles = s.cycles := rfl
@[simp] theorem State.onMarker_interlock (l : Line) (f : MarkerLine → MarkerLine) : (s.onMarker l f).interlock = s.interlock := rfl
@[simp] theorem State.onMarker_strain (l : Line) (f : MarkerLine → MarkerLine) : (s.onMarker l f).strain = s.strain := rfl
@[simp] theorem State.onMarker_crack (l : Line) (f : MarkerLine → MarkerLine) : (s.onMarker l f).crack = s.crack := rfl
@[simp] theorem State.onMarker_sets (l : Line) (f : MarkerLine → MarkerLine) : (s.onMarker l f).sets = s.sets := rfl
@[simp] theorem State.onMarker_alarm (l : Line) (f : MarkerLine → MarkerLine) : (s.onMarker l f).alarm = s.alarm := rfl
@[simp] theorem State.onMarker_captures (l : Line) (f : MarkerLine → MarkerLine) : (s.onMarker l f).captures = s.captures := rfl
@[simp] theorem State.onMarker_markers (l : Line) (f : MarkerLine → MarkerLine) : (s.onMarker l f).markers = s.markers.alter l f := rfl
@[simp] theorem State.onMarker_watch (l : Line) (f : MarkerLine → MarkerLine) : (s.onMarker l f).watch = s.watch := rfl
@[simp] theorem State.onMarker_service (l : Line) (f : MarkerLine → MarkerLine) : (s.onMarker l f).service = s.service := rfl

/-! ### onService -/

@[simp] theorem State.onService_pending (f : ServiceHandler → ServiceHandler) : (s.onService f).pending = s.pending := rfl
@[simp] theorem State.onService_unit (f : ServiceHandler → ServiceHandler) : (s.onService f).unit = s.unit := rfl
@[simp] theorem State.onService_outLane (f : ServiceHandler → ServiceHandler) : (s.onService f).outLane = s.outLane := rfl
@[simp] theorem State.onService_retLane (f : ServiceHandler → ServiceHandler) : (s.onService f).retLane = s.retLane := rfl
@[simp] theorem State.onService_slotMap (f : ServiceHandler → ServiceHandler) : (s.onService f).slotMap = s.slotMap := rfl
@[simp] theorem State.onService_shaper (f : ServiceHandler → ServiceHandler) : (s.onService f).shaper = s.shaper := rfl
@[simp] theorem State.onService_pages (f : ServiceHandler → ServiceHandler) : (s.onService f).pages = s.pages := rfl
@[simp] theorem State.onService_shapes (f : ServiceHandler → ServiceHandler) : (s.onService f).shapes = s.shapes := rfl
@[simp] theorem State.onService_cycles (f : ServiceHandler → ServiceHandler) : (s.onService f).cycles = s.cycles := rfl
@[simp] theorem State.onService_interlock (f : ServiceHandler → ServiceHandler) : (s.onService f).interlock = s.interlock := rfl
@[simp] theorem State.onService_strain (f : ServiceHandler → ServiceHandler) : (s.onService f).strain = s.strain := rfl
@[simp] theorem State.onService_crack (f : ServiceHandler → ServiceHandler) : (s.onService f).crack = s.crack := rfl
@[simp] theorem State.onService_sets (f : ServiceHandler → ServiceHandler) : (s.onService f).sets = s.sets := rfl
@[simp] theorem State.onService_alarm (f : ServiceHandler → ServiceHandler) : (s.onService f).alarm = s.alarm := rfl
@[simp] theorem State.onService_captures (f : ServiceHandler → ServiceHandler) : (s.onService f).captures = s.captures := rfl
@[simp] theorem State.onService_markers (f : ServiceHandler → ServiceHandler) : (s.onService f).markers = s.markers := rfl
@[simp] theorem State.onService_watch (f : ServiceHandler → ServiceHandler) : (s.onService f).watch = s.watch := rfl
@[simp] theorem State.onService_service (f : ServiceHandler → ServiceHandler) : (s.onService f).service = f s.service := rfl

/-! ### onWatch -/

@[simp] theorem State.onWatch_pending (f : SweepWatch → SweepWatch) : (s.onWatch f).pending = s.pending := rfl
@[simp] theorem State.onWatch_unit (f : SweepWatch → SweepWatch) : (s.onWatch f).unit = s.unit := rfl
@[simp] theorem State.onWatch_outLane (f : SweepWatch → SweepWatch) : (s.onWatch f).outLane = s.outLane := rfl
@[simp] theorem State.onWatch_retLane (f : SweepWatch → SweepWatch) : (s.onWatch f).retLane = s.retLane := rfl
@[simp] theorem State.onWatch_slotMap (f : SweepWatch → SweepWatch) : (s.onWatch f).slotMap = s.slotMap := rfl
@[simp] theorem State.onWatch_shaper (f : SweepWatch → SweepWatch) : (s.onWatch f).shaper = s.shaper := rfl
@[simp] theorem State.onWatch_pages (f : SweepWatch → SweepWatch) : (s.onWatch f).pages = s.pages := rfl
@[simp] theorem State.onWatch_shapes (f : SweepWatch → SweepWatch) : (s.onWatch f).shapes = s.shapes := rfl
@[simp] theorem State.onWatch_cycles (f : SweepWatch → SweepWatch) : (s.onWatch f).cycles = s.cycles := rfl
@[simp] theorem State.onWatch_interlock (f : SweepWatch → SweepWatch) : (s.onWatch f).interlock = s.interlock := rfl
@[simp] theorem State.onWatch_strain (f : SweepWatch → SweepWatch) : (s.onWatch f).strain = s.strain := rfl
@[simp] theorem State.onWatch_crack (f : SweepWatch → SweepWatch) : (s.onWatch f).crack = s.crack := rfl
@[simp] theorem State.onWatch_sets (f : SweepWatch → SweepWatch) : (s.onWatch f).sets = s.sets := rfl
@[simp] theorem State.onWatch_alarm (f : SweepWatch → SweepWatch) : (s.onWatch f).alarm = s.alarm := rfl
@[simp] theorem State.onWatch_captures (f : SweepWatch → SweepWatch) : (s.onWatch f).captures = s.captures := rfl
@[simp] theorem State.onWatch_markers (f : SweepWatch → SweepWatch) : (s.onWatch f).markers = s.markers := rfl
@[simp] theorem State.onWatch_watch (f : SweepWatch → SweepWatch) : (s.onWatch f).watch = f s.watch := rfl
@[simp] theorem State.onWatch_service (f : SweepWatch → SweepWatch) : (s.onWatch f).service = s.service := rfl

/-! ### Readings -/

theorem State.lock_onLock (g : Group) (f : GroupLock → GroupLock) (h : Group) :
    (s.onLock g f).lock h = if h = g then f (s.lock h) else s.lock h :=
  Vector.entry_alter _ _ _ _
@[simp] theorem State.lock_onLock_same (g : Group) (f : GroupLock → GroupLock) : (s.onLock g f).lock g = f (s.lock g) :=
  Vector.entry_alter_same _ _ _
@[simp] theorem State.lock_onActuator (a : Actuator) (f : ActuatorLock → ActuatorLock) (h : Group) : (s.onActuator a f).lock h = s.lock h := rfl
@[simp] theorem State.lock_onShape (g : Group) (f : GroupShape → GroupShape) (h : Group) : (s.onShape g f).lock h = s.lock h := rfl
@[simp] theorem State.lock_onOutput (a : Actuator) (f : ActuatorOutput → ActuatorOutput) (h : Group) : (s.onOutput a f).lock h = s.lock h := rfl
@[simp] theorem State.lock_onOutputs (f : Actuator → ActuatorOutput → ActuatorOutput) (h : Group) : (s.onOutputs f).lock h = s.lock h := rfl
@[simp] theorem State.lock_onPages (g : Group) (f : GroupPages → GroupPages) (h : Group) : (s.onPages g f).lock h = s.lock h := rfl
@[simp] theorem State.lock_onCycles (g : Group) (f : GroupCycles → GroupCycles) (h : Group) : (s.onCycles g f).lock h = s.lock h := rfl
@[simp] theorem State.lock_onAllCycles (f : Group → GroupCycles → GroupCycles) (h : Group) : (s.onAllCycles f).lock h = s.lock h := rfl
@[simp] theorem State.lock_onStrain (c : Fin 256) (f : StrainChannel → StrainChannel) (h : Group) : (s.onStrain c f).lock h = s.lock h := rfl
@[simp] theorem State.lock_onCrack (k : Fin 64) (f : CrackChannel → CrackChannel) (h : Group) : (s.onCrack k f).lock h = s.lock h := rfl
@[simp] theorem State.lock_onSet (n : Fin 8) (f : CoincidenceSet → CoincidenceSet) (h : Group) : (s.onSet n f).lock h = s.lock h := rfl
@[simp] theorem State.lock_onMarker (l : Line) (f : MarkerLine → MarkerLine) (h : Group) : (s.onMarker l f).lock h = s.lock h := rfl
@[simp] theorem State.lock_onService (f : ServiceHandler → ServiceHandler) (h : Group) : (s.onService f).lock h = s.lock h := rfl
@[simp] theorem State.lock_onWatch (f : SweepWatch → SweepWatch) (h : Group) : (s.onWatch f).lock h = s.lock h := rfl

@[simp] theorem State.actuator_onLock (g : Group) (f : GroupLock → GroupLock) (x : Actuator) : (s.onLock g f).actuator x = s.actuator x := rfl
theorem State.actuator_onActuator (a : Actuator) (f : ActuatorLock → ActuatorLock) (x : Actuator) :
    (s.onActuator a f).actuator x = if x = a then f (s.actuator x) else s.actuator x :=
  Vector.entry_alter _ _ _ _
@[simp] theorem State.actuator_onActuator_same (a : Actuator) (f : ActuatorLock → ActuatorLock) : (s.onActuator a f).actuator a = f (s.actuator a) :=
  Vector.entry_alter_same _ _ _
@[simp] theorem State.actuator_onShape (g : Group) (f : GroupShape → GroupShape) (x : Actuator) : (s.onShape g f).actuator x = s.actuator x := rfl
@[simp] theorem State.actuator_onOutput (a : Actuator) (f : ActuatorOutput → ActuatorOutput) (x : Actuator) : (s.onOutput a f).actuator x = s.actuator x := rfl
@[simp] theorem State.actuator_onOutputs (f : Actuator → ActuatorOutput → ActuatorOutput) (x : Actuator) : (s.onOutputs f).actuator x = s.actuator x := rfl
@[simp] theorem State.actuator_onPages (g : Group) (f : GroupPages → GroupPages) (x : Actuator) : (s.onPages g f).actuator x = s.actuator x := rfl
@[simp] theorem State.actuator_onCycles (g : Group) (f : GroupCycles → GroupCycles) (x : Actuator) : (s.onCycles g f).actuator x = s.actuator x := rfl
@[simp] theorem State.actuator_onAllCycles (f : Group → GroupCycles → GroupCycles) (x : Actuator) : (s.onAllCycles f).actuator x = s.actuator x := rfl
@[simp] theorem State.actuator_onStrain (c : Fin 256) (f : StrainChannel → StrainChannel) (x : Actuator) : (s.onStrain c f).actuator x = s.actuator x := rfl
@[simp] theorem State.actuator_onCrack (k : Fin 64) (f : CrackChannel → CrackChannel) (x : Actuator) : (s.onCrack k f).actuator x = s.actuator x := rfl
@[simp] theorem State.actuator_onSet (n : Fin 8) (f : CoincidenceSet → CoincidenceSet) (x : Actuator) : (s.onSet n f).actuator x = s.actuator x := rfl
@[simp] theorem State.actuator_onMarker (l : Line) (f : MarkerLine → MarkerLine) (x : Actuator) : (s.onMarker l f).actuator x = s.actuator x := rfl
@[simp] theorem State.actuator_onService (f : ServiceHandler → ServiceHandler) (x : Actuator) : (s.onService f).actuator x = s.actuator x := rfl
@[simp] theorem State.actuator_onWatch (f : SweepWatch → SweepWatch) (x : Actuator) : (s.onWatch f).actuator x = s.actuator x := rfl

@[simp] theorem State.output_onLock (g : Group) (f : GroupLock → GroupLock) (x : Actuator) : (s.onLock g f).output x = s.output x := rfl
@[simp] theorem State.output_onActuator (a : Actuator) (f : ActuatorLock → ActuatorLock) (x : Actuator) : (s.onActuator a f).output x = s.output x := rfl
@[simp] theorem State.output_onShape (g : Group) (f : GroupShape → GroupShape) (x : Actuator) : (s.onShape g f).output x = s.output x := rfl
theorem State.output_onOutput (a : Actuator) (f : ActuatorOutput → ActuatorOutput) (x : Actuator) :
    (s.onOutput a f).output x = if x = a then f (s.output x) else s.output x :=
  Vector.entry_alter _ _ _ _
@[simp] theorem State.output_onOutput_same (a : Actuator) (f : ActuatorOutput → ActuatorOutput) : (s.onOutput a f).output a = f (s.output a) :=
  Vector.entry_alter_same _ _ _
@[simp] theorem State.output_onOutputs (f : Actuator → ActuatorOutput → ActuatorOutput) (x : Actuator) :
    (s.onOutputs f).output x = f x (s.output x) :=
  Vector.entry_alterAll _ _ _
@[simp] theorem State.output_onPages (g : Group) (f : GroupPages → GroupPages) (x : Actuator) : (s.onPages g f).output x = s.output x := rfl
@[simp] theorem State.output_onCycles (g : Group) (f : GroupCycles → GroupCycles) (x : Actuator) : (s.onCycles g f).output x = s.output x := rfl
@[simp] theorem State.output_onAllCycles (f : Group → GroupCycles → GroupCycles) (x : Actuator) : (s.onAllCycles f).output x = s.output x := rfl
@[simp] theorem State.output_onStrain (c : Fin 256) (f : StrainChannel → StrainChannel) (x : Actuator) : (s.onStrain c f).output x = s.output x := rfl
@[simp] theorem State.output_onCrack (k : Fin 64) (f : CrackChannel → CrackChannel) (x : Actuator) : (s.onCrack k f).output x = s.output x := rfl
@[simp] theorem State.output_onSet (n : Fin 8) (f : CoincidenceSet → CoincidenceSet) (x : Actuator) : (s.onSet n f).output x = s.output x := rfl
@[simp] theorem State.output_onMarker (l : Line) (f : MarkerLine → MarkerLine) (x : Actuator) : (s.onMarker l f).output x = s.output x := rfl
@[simp] theorem State.output_onService (f : ServiceHandler → ServiceHandler) (x : Actuator) : (s.onService f).output x = s.output x := rfl
@[simp] theorem State.output_onWatch (f : SweepWatch → SweepWatch) (x : Actuator) : (s.onWatch f).output x = s.output x := rfl

@[simp] theorem State.shape_onLock (g : Group) (f : GroupLock → GroupLock) (h : Group) : (s.onLock g f).shape h = s.shape h := rfl
@[simp] theorem State.shape_onActuator (a : Actuator) (f : ActuatorLock → ActuatorLock) (h : Group) : (s.onActuator a f).shape h = s.shape h := rfl
theorem State.shape_onShape (g : Group) (f : GroupShape → GroupShape) (h : Group) :
    (s.onShape g f).shape h = if h = g then f (s.shape h) else s.shape h :=
  Vector.entry_alter _ _ _ _
@[simp] theorem State.shape_onShape_same (g : Group) (f : GroupShape → GroupShape) : (s.onShape g f).shape g = f (s.shape g) :=
  Vector.entry_alter_same _ _ _
@[simp] theorem State.shape_onOutput (a : Actuator) (f : ActuatorOutput → ActuatorOutput) (h : Group) : (s.onOutput a f).shape h = s.shape h := rfl
@[simp] theorem State.shape_onOutputs (f : Actuator → ActuatorOutput → ActuatorOutput) (h : Group) : (s.onOutputs f).shape h = s.shape h := rfl
@[simp] theorem State.shape_onPages (g : Group) (f : GroupPages → GroupPages) (h : Group) : (s.onPages g f).shape h = s.shape h := rfl
@[simp] theorem State.shape_onCycles (g : Group) (f : GroupCycles → GroupCycles) (h : Group) : (s.onCycles g f).shape h = s.shape h := rfl
@[simp] theorem State.shape_onAllCycles (f : Group → GroupCycles → GroupCycles) (h : Group) : (s.onAllCycles f).shape h = s.shape h := rfl
@[simp] theorem State.shape_onStrain (c : Fin 256) (f : StrainChannel → StrainChannel) (h : Group) : (s.onStrain c f).shape h = s.shape h := rfl
@[simp] theorem State.shape_onCrack (k : Fin 64) (f : CrackChannel → CrackChannel) (h : Group) : (s.onCrack k f).shape h = s.shape h := rfl
@[simp] theorem State.shape_onSet (n : Fin 8) (f : CoincidenceSet → CoincidenceSet) (h : Group) : (s.onSet n f).shape h = s.shape h := rfl
@[simp] theorem State.shape_onMarker (l : Line) (f : MarkerLine → MarkerLine) (h : Group) : (s.onMarker l f).shape h = s.shape h := rfl
@[simp] theorem State.shape_onService (f : ServiceHandler → ServiceHandler) (h : Group) : (s.onService f).shape h = s.shape h := rfl
@[simp] theorem State.shape_onWatch (f : SweepWatch → SweepWatch) (h : Group) : (s.onWatch f).shape h = s.shape h := rfl

/-! ### Readings that rest on others -/

@[simp] theorem State.members_onLock (g : Group) (f : GroupLock → GroupLock) (h : Group) : (s.onLock g f).members h = s.members h := rfl
@[simp] theorem State.page_onLock (g : Group) (f : GroupLock → GroupLock) (h : Group) (p : Fin 4) : (s.onLock g f).page h p = s.page h p := rfl
@[simp] theorem State.activePage_onLock (g : Group) (f : GroupLock → GroupLock) (h : Group) : (s.onLock g f).activePage h = s.activePage h := rfl
@[simp] theorem State.complete_onLock (g : Group) (f : GroupLock → GroupLock) (h : Group) (p : Fin 4) :
    (s.onLock g f).complete h p = s.complete h p := rfl
@[simp] theorem State.groupState_onActuator (a : Actuator) (f : ActuatorLock → ActuatorLock) (h : Group) : (s.onActuator a f).groupState h = s.groupState h := rfl
@[simp] theorem State.lead_onActuator (a : Actuator) (f : ActuatorLock → ActuatorLock) (h : Group) : (s.onActuator a f).lead h = s.lead h := rfl
@[simp] theorem State.linkedTo_onActuator (a : Actuator) (f : ActuatorLock → ActuatorLock) (h : Group) : (s.onActuator a f).linkedTo h = s.linkedTo h := rfl
@[simp] theorem State.page_onActuator (a : Actuator) (f : ActuatorLock → ActuatorLock) (h : Group) (p : Fin 4) : (s.onActuator a f).page h p = s.page h p := rfl
@[simp] theorem State.activePage_onActuator (a : Actuator) (f : ActuatorLock → ActuatorLock) (h : Group) : (s.onActuator a f).activePage h = s.activePage h := rfl
@[simp] theorem State.groupState_onShape (g : Group) (f : GroupShape → GroupShape) (h : Group) : (s.onShape g f).groupState h = s.groupState h := rfl
@[simp] theorem State.lead_onShape (g : Group) (f : GroupShape → GroupShape) (h : Group) : (s.onShape g f).lead h = s.lead h := rfl
@[simp] theorem State.linkedTo_onShape (g : Group) (f : GroupShape → GroupShape) (h : Group) : (s.onShape g f).linkedTo h = s.linkedTo h := rfl
@[simp] theorem State.members_onShape (g : Group) (f : GroupShape → GroupShape) (h : Group) : (s.onShape g f).members h = s.members h := rfl
@[simp] theorem State.page_onShape (g : Group) (f : GroupShape → GroupShape) (h : Group) (p : Fin 4) : (s.onShape g f).page h p = s.page h p := rfl
@[simp] theorem State.activePage_onShape (g : Group) (f : GroupShape → GroupShape) (h : Group) : (s.onShape g f).activePage h = s.activePage h := rfl
@[simp] theorem State.complete_onShape (g : Group) (f : GroupShape → GroupShape) (h : Group) (p : Fin 4) :
    (s.onShape g f).complete h p = s.complete h p := rfl
@[simp] theorem State.groupState_onOutput (a : Actuator) (f : ActuatorOutput → ActuatorOutput) (h : Group) : (s.onOutput a f).groupState h = s.groupState h := rfl
@[simp] theorem State.lead_onOutput (a : Actuator) (f : ActuatorOutput → ActuatorOutput) (h : Group) : (s.onOutput a f).lead h = s.lead h := rfl
@[simp] theorem State.linkedTo_onOutput (a : Actuator) (f : ActuatorOutput → ActuatorOutput) (h : Group) : (s.onOutput a f).linkedTo h = s.linkedTo h := rfl
@[simp] theorem State.members_onOutput (a : Actuator) (f : ActuatorOutput → ActuatorOutput) (h : Group) : (s.onOutput a f).members h = s.members h := rfl
@[simp] theorem State.page_onOutput (a : Actuator) (f : ActuatorOutput → ActuatorOutput) (h : Group) (p : Fin 4) : (s.onOutput a f).page h p = s.page h p := rfl
@[simp] theorem State.activePage_onOutput (a : Actuator) (f : ActuatorOutput → ActuatorOutput) (h : Group) : (s.onOutput a f).activePage h = s.activePage h := rfl
@[simp] theorem State.complete_onOutput (a : Actuator) (f : ActuatorOutput → ActuatorOutput) (h : Group) (p : Fin 4) :
    (s.onOutput a f).complete h p = s.complete h p := rfl
@[simp] theorem State.groupState_onOutputs (f : Actuator → ActuatorOutput → ActuatorOutput) (h : Group) : (s.onOutputs f).groupState h = s.groupState h := rfl
@[simp] theorem State.lead_onOutputs (f : Actuator → ActuatorOutput → ActuatorOutput) (h : Group) : (s.onOutputs f).lead h = s.lead h := rfl
@[simp] theorem State.linkedTo_onOutputs (f : Actuator → ActuatorOutput → ActuatorOutput) (h : Group) : (s.onOutputs f).linkedTo h = s.linkedTo h := rfl
@[simp] theorem State.members_onOutputs (f : Actuator → ActuatorOutput → ActuatorOutput) (h : Group) : (s.onOutputs f).members h = s.members h := rfl
@[simp] theorem State.page_onOutputs (f : Actuator → ActuatorOutput → ActuatorOutput) (h : Group) (p : Fin 4) : (s.onOutputs f).page h p = s.page h p := rfl
@[simp] theorem State.activePage_onOutputs (f : Actuator → ActuatorOutput → ActuatorOutput) (h : Group) : (s.onOutputs f).activePage h = s.activePage h := rfl
@[simp] theorem State.complete_onOutputs (f : Actuator → ActuatorOutput → ActuatorOutput) (h : Group) (p : Fin 4) :
    (s.onOutputs f).complete h p = s.complete h p := rfl
@[simp] theorem State.groupState_onPages (g : Group) (f : GroupPages → GroupPages) (h : Group) : (s.onPages g f).groupState h = s.groupState h := rfl
@[simp] theorem State.lead_onPages (g : Group) (f : GroupPages → GroupPages) (h : Group) : (s.onPages g f).lead h = s.lead h := rfl
@[simp] theorem State.linkedTo_onPages (g : Group) (f : GroupPages → GroupPages) (h : Group) : (s.onPages g f).linkedTo h = s.linkedTo h := rfl
@[simp] theorem State.members_onPages (g : Group) (f : GroupPages → GroupPages) (h : Group) : (s.onPages g f).members h = s.members h := rfl
@[simp] theorem State.groupState_onCycles (g : Group) (f : GroupCycles → GroupCycles) (h : Group) : (s.onCycles g f).groupState h = s.groupState h := rfl
@[simp] theorem State.lead_onCycles (g : Group) (f : GroupCycles → GroupCycles) (h : Group) : (s.onCycles g f).lead h = s.lead h := rfl
@[simp] theorem State.linkedTo_onCycles (g : Group) (f : GroupCycles → GroupCycles) (h : Group) : (s.onCycles g f).linkedTo h = s.linkedTo h := rfl
@[simp] theorem State.members_onCycles (g : Group) (f : GroupCycles → GroupCycles) (h : Group) : (s.onCycles g f).members h = s.members h := rfl
@[simp] theorem State.page_onCycles (g : Group) (f : GroupCycles → GroupCycles) (h : Group) (p : Fin 4) : (s.onCycles g f).page h p = s.page h p := rfl
@[simp] theorem State.activePage_onCycles (g : Group) (f : GroupCycles → GroupCycles) (h : Group) : (s.onCycles g f).activePage h = s.activePage h := rfl
@[simp] theorem State.complete_onCycles (g : Group) (f : GroupCycles → GroupCycles) (h : Group) (p : Fin 4) :
    (s.onCycles g f).complete h p = s.complete h p := rfl
@[simp] theorem State.groupState_onAllCycles (f : Group → GroupCycles → GroupCycles) (h : Group) : (s.onAllCycles f).groupState h = s.groupState h := rfl
@[simp] theorem State.lead_onAllCycles (f : Group → GroupCycles → GroupCycles) (h : Group) : (s.onAllCycles f).lead h = s.lead h := rfl
@[simp] theorem State.linkedTo_onAllCycles (f : Group → GroupCycles → GroupCycles) (h : Group) : (s.onAllCycles f).linkedTo h = s.linkedTo h := rfl
@[simp] theorem State.members_onAllCycles (f : Group → GroupCycles → GroupCycles) (h : Group) : (s.onAllCycles f).members h = s.members h := rfl
@[simp] theorem State.page_onAllCycles (f : Group → GroupCycles → GroupCycles) (h : Group) (p : Fin 4) : (s.onAllCycles f).page h p = s.page h p := rfl
@[simp] theorem State.activePage_onAllCycles (f : Group → GroupCycles → GroupCycles) (h : Group) : (s.onAllCycles f).activePage h = s.activePage h := rfl
@[simp] theorem State.complete_onAllCycles (f : Group → GroupCycles → GroupCycles) (h : Group) (p : Fin 4) :
    (s.onAllCycles f).complete h p = s.complete h p := rfl
@[simp] theorem State.groupState_onStrain (c : Fin 256) (f : StrainChannel → StrainChannel) (h : Group) : (s.onStrain c f).groupState h = s.groupState h := rfl
@[simp] theorem State.lead_onStrain (c : Fin 256) (f : StrainChannel → StrainChannel) (h : Group) : (s.onStrain c f).lead h = s.lead h := rfl
@[simp] theorem State.linkedTo_onStrain (c : Fin 256) (f : StrainChannel → StrainChannel) (h : Group) : (s.onStrain c f).linkedTo h = s.linkedTo h := rfl
@[simp] theorem State.members_onStrain (c : Fin 256) (f : StrainChannel → StrainChannel) (h : Group) : (s.onStrain c f).members h = s.members h := rfl
@[simp] theorem State.page_onStrain (c : Fin 256) (f : StrainChannel → StrainChannel) (h : Group) (p : Fin 4) : (s.onStrain c f).page h p = s.page h p := rfl
@[simp] theorem State.activePage_onStrain (c : Fin 256) (f : StrainChannel → StrainChannel) (h : Group) : (s.onStrain c f).activePage h = s.activePage h := rfl
@[simp] theorem State.complete_onStrain (c : Fin 256) (f : StrainChannel → StrainChannel) (h : Group) (p : Fin 4) :
    (s.onStrain c f).complete h p = s.complete h p := rfl
@[simp] theorem State.groupState_onCrack (k : Fin 64) (f : CrackChannel → CrackChannel) (h : Group) : (s.onCrack k f).groupState h = s.groupState h := rfl
@[simp] theorem State.lead_onCrack (k : Fin 64) (f : CrackChannel → CrackChannel) (h : Group) : (s.onCrack k f).lead h = s.lead h := rfl
@[simp] theorem State.linkedTo_onCrack (k : Fin 64) (f : CrackChannel → CrackChannel) (h : Group) : (s.onCrack k f).linkedTo h = s.linkedTo h := rfl
@[simp] theorem State.members_onCrack (k : Fin 64) (f : CrackChannel → CrackChannel) (h : Group) : (s.onCrack k f).members h = s.members h := rfl
@[simp] theorem State.page_onCrack (k : Fin 64) (f : CrackChannel → CrackChannel) (h : Group) (p : Fin 4) : (s.onCrack k f).page h p = s.page h p := rfl
@[simp] theorem State.activePage_onCrack (k : Fin 64) (f : CrackChannel → CrackChannel) (h : Group) : (s.onCrack k f).activePage h = s.activePage h := rfl
@[simp] theorem State.complete_onCrack (k : Fin 64) (f : CrackChannel → CrackChannel) (h : Group) (p : Fin 4) :
    (s.onCrack k f).complete h p = s.complete h p := rfl
@[simp] theorem State.groupState_onSet (n : Fin 8) (f : CoincidenceSet → CoincidenceSet) (h : Group) : (s.onSet n f).groupState h = s.groupState h := rfl
@[simp] theorem State.lead_onSet (n : Fin 8) (f : CoincidenceSet → CoincidenceSet) (h : Group) : (s.onSet n f).lead h = s.lead h := rfl
@[simp] theorem State.linkedTo_onSet (n : Fin 8) (f : CoincidenceSet → CoincidenceSet) (h : Group) : (s.onSet n f).linkedTo h = s.linkedTo h := rfl
@[simp] theorem State.members_onSet (n : Fin 8) (f : CoincidenceSet → CoincidenceSet) (h : Group) : (s.onSet n f).members h = s.members h := rfl
@[simp] theorem State.page_onSet (n : Fin 8) (f : CoincidenceSet → CoincidenceSet) (h : Group) (p : Fin 4) : (s.onSet n f).page h p = s.page h p := rfl
@[simp] theorem State.activePage_onSet (n : Fin 8) (f : CoincidenceSet → CoincidenceSet) (h : Group) : (s.onSet n f).activePage h = s.activePage h := rfl
@[simp] theorem State.complete_onSet (n : Fin 8) (f : CoincidenceSet → CoincidenceSet) (h : Group) (p : Fin 4) :
    (s.onSet n f).complete h p = s.complete h p := rfl
@[simp] theorem State.groupState_onMarker (l : Line) (f : MarkerLine → MarkerLine) (h : Group) : (s.onMarker l f).groupState h = s.groupState h := rfl
@[simp] theorem State.lead_onMarker (l : Line) (f : MarkerLine → MarkerLine) (h : Group) : (s.onMarker l f).lead h = s.lead h := rfl
@[simp] theorem State.linkedTo_onMarker (l : Line) (f : MarkerLine → MarkerLine) (h : Group) : (s.onMarker l f).linkedTo h = s.linkedTo h := rfl
@[simp] theorem State.members_onMarker (l : Line) (f : MarkerLine → MarkerLine) (h : Group) : (s.onMarker l f).members h = s.members h := rfl
@[simp] theorem State.page_onMarker (l : Line) (f : MarkerLine → MarkerLine) (h : Group) (p : Fin 4) : (s.onMarker l f).page h p = s.page h p := rfl
@[simp] theorem State.activePage_onMarker (l : Line) (f : MarkerLine → MarkerLine) (h : Group) : (s.onMarker l f).activePage h = s.activePage h := rfl
@[simp] theorem State.complete_onMarker (l : Line) (f : MarkerLine → MarkerLine) (h : Group) (p : Fin 4) :
    (s.onMarker l f).complete h p = s.complete h p := rfl
@[simp] theorem State.groupState_onService (f : ServiceHandler → ServiceHandler) (h : Group) : (s.onService f).groupState h = s.groupState h := rfl
@[simp] theorem State.lead_onService (f : ServiceHandler → ServiceHandler) (h : Group) : (s.onService f).lead h = s.lead h := rfl
@[simp] theorem State.linkedTo_onService (f : ServiceHandler → ServiceHandler) (h : Group) : (s.onService f).linkedTo h = s.linkedTo h := rfl
@[simp] theorem State.members_onService (f : ServiceHandler → ServiceHandler) (h : Group) : (s.onService f).members h = s.members h := rfl
@[simp] theorem State.page_onService (f : ServiceHandler → ServiceHandler) (h : Group) (p : Fin 4) : (s.onService f).page h p = s.page h p := rfl
@[simp] theorem State.activePage_onService (f : ServiceHandler → ServiceHandler) (h : Group) : (s.onService f).activePage h = s.activePage h := rfl
@[simp] theorem State.complete_onService (f : ServiceHandler → ServiceHandler) (h : Group) (p : Fin 4) :
    (s.onService f).complete h p = s.complete h p := rfl
@[simp] theorem State.groupState_onWatch (f : SweepWatch → SweepWatch) (h : Group) : (s.onWatch f).groupState h = s.groupState h := rfl
@[simp] theorem State.lead_onWatch (f : SweepWatch → SweepWatch) (h : Group) : (s.onWatch f).lead h = s.lead h := rfl
@[simp] theorem State.linkedTo_onWatch (f : SweepWatch → SweepWatch) (h : Group) : (s.onWatch f).linkedTo h = s.linkedTo h := rfl
@[simp] theorem State.members_onWatch (f : SweepWatch → SweepWatch) (h : Group) : (s.onWatch f).members h = s.members h := rfl
@[simp] theorem State.page_onWatch (f : SweepWatch → SweepWatch) (h : Group) (p : Fin 4) : (s.onWatch f).page h p = s.page h p := rfl
@[simp] theorem State.activePage_onWatch (f : SweepWatch → SweepWatch) (h : Group) : (s.onWatch f).activePage h = s.activePage h := rfl
@[simp] theorem State.complete_onWatch (f : SweepWatch → SweepWatch) (h : Group) (p : Fin 4) :
    (s.onWatch f).complete h p = s.complete h p := rfl

theorem State.groupState_onLock (g : Group) (f : GroupLock → GroupLock) (h : Group) :
    (s.onLock g f).groupState h = if h = g then (f (s.lock h)).state else s.groupState h := by
  unfold State.groupState
  rw [State.lock_onLock]
  split <;> rfl

/-- An update that keeps the record keeps every lead. -/
theorem State.lead_onLock (g : Group) (f : GroupLock → GroupLock) (hf : ∀ l, (f l).record = l.record) (h : Group) :
    (s.onLock g f).lead h = s.lead h := by
  unfold State.lead
  rw [State.lock_onLock]
  split <;> simp [hf]

/-! ### Lanes -/

@[simp] theorem State.lane_outbound : s.lane .outbound = s.outLane := rfl
@[simp] theorem State.lane_ret : s.lane .ret = s.retLane := rfl
theorem State.onLane_outbound (f : Lane → Lane) : s.onLane .outbound f = { s with outLane := f s.outLane } := rfl
theorem State.onLane_ret (f : Lane → Lane) : s.onLane .ret f = { s with retLane := f s.retLane } := rfl

@[simp] theorem State.lane_onLane_same (l : LaneId) (f : Lane → Lane) : (s.onLane l f).lane l = f (s.lane l) := by
  cases l <;> rfl

@[simp] theorem State.onLane_pending (l : LaneId) (f : Lane → Lane) : (s.onLane l f).pending = s.pending := by
  cases l <;> rfl
@[simp] theorem State.onLane_unit (l : LaneId) (f : Lane → Lane) : (s.onLane l f).unit = s.unit := by
  cases l <;> rfl
@[simp] theorem State.onLane_slotMap (l : LaneId) (f : Lane → Lane) : (s.onLane l f).slotMap = s.slotMap := by
  cases l <;> rfl
@[simp] theorem State.onLane_shaper (l : LaneId) (f : Lane → Lane) : (s.onLane l f).shaper = s.shaper := by
  cases l <;> rfl
@[simp] theorem State.onLane_pages (l : LaneId) (f : Lane → Lane) : (s.onLane l f).pages = s.pages := by
  cases l <;> rfl
@[simp] theorem State.onLane_shapes (l : LaneId) (f : Lane → Lane) : (s.onLane l f).shapes = s.shapes := by
  cases l <;> rfl
@[simp] theorem State.onLane_cycles (l : LaneId) (f : Lane → Lane) : (s.onLane l f).cycles = s.cycles := by
  cases l <;> rfl
@[simp] theorem State.onLane_interlock (l : LaneId) (f : Lane → Lane) : (s.onLane l f).interlock = s.interlock := by
  cases l <;> rfl
@[simp] theorem State.onLane_strain (l : LaneId) (f : Lane → Lane) : (s.onLane l f).strain = s.strain := by
  cases l <;> rfl
@[simp] theorem State.onLane_crack (l : LaneId) (f : Lane → Lane) : (s.onLane l f).crack = s.crack := by
  cases l <;> rfl
@[simp] theorem State.onLane_sets (l : LaneId) (f : Lane → Lane) : (s.onLane l f).sets = s.sets := by
  cases l <;> rfl
@[simp] theorem State.onLane_alarm (l : LaneId) (f : Lane → Lane) : (s.onLane l f).alarm = s.alarm := by
  cases l <;> rfl
@[simp] theorem State.onLane_captures (l : LaneId) (f : Lane → Lane) : (s.onLane l f).captures = s.captures := by
  cases l <;> rfl
@[simp] theorem State.onLane_markers (l : LaneId) (f : Lane → Lane) : (s.onLane l f).markers = s.markers := by
  cases l <;> rfl
@[simp] theorem State.onLane_watch (l : LaneId) (f : Lane → Lane) : (s.onLane l f).watch = s.watch := by
  cases l <;> rfl
@[simp] theorem State.onLane_service (l : LaneId) (f : Lane → Lane) : (s.onLane l f).service = s.service := by
  cases l <;> rfl

@[simp] theorem State.onLane_onLane (l : LaneId) (f k : Lane → Lane) :
    (s.onLane l f).onLane l k = s.onLane l (fun x => k (f x)) := by
  cases l <;> rfl

/-! ### Updates one after the other -/

@[simp] theorem State.onService_onService (f k : ServiceHandler → ServiceHandler) :
    (s.onService f).onService k = s.onService (fun v => k (f v)) := rfl

theorem State.onService_onLane (l : LaneId) (f : Lane → Lane) (k : ServiceHandler → ServiceHandler) :
    (s.onLane l f).onService k = (s.onService k).onLane l f := by
  cases l <;> rfl

@[simp] theorem State.onLock_onLock (g : Group) (f k : GroupLock → GroupLock) :
    (s.onLock g f).onLock g k = s.onLock g (fun l => k (f l)) := by
  unfold State.onLock
  simp only [Vector.alter_alter]

end Sys2Proof.Machine
end

