-- ==== Sys2Proof/Laws/Alarm.lean ====
section
/-! SUPPORT. What taking a raise can do, said once for each of its parts: the entry put in its place, the move of a group, the
action on a group of the mask, the capture. -/

namespace Sys2Proof.Machine

open Sys2Proof

/-! ### Entries in presentation order (R137) -/

/-- Source numbers tell the sources apart. -/
theorem Source.number_injective {x y : Source} (h : x.number = y.number) : x = y := by
  cases x <;> cases y <;> simp only [Source.number, numberOf] at h <;>
    first
    | rfl
    | (congr 1; apply Fin.ext; omega)
    | omega

/-- One entry outranks another when its level is higher, or the levels are equal and its source number is lower. -/
theorem Entry.outranks_iff (e f : Entry) :
    e.outranks f = true ↔ f.level < e.level ∨ (e.level = f.level ∧ e.source.number < f.source.number) := by
  simp [Entry.outranks]

/-- Of two entries of different sources one outranks the other. -/
theorem Entry.outranks_total {e f : Entry} (h : e.source ≠ f.source) : e.outranks f = true ∨ f.outranks e = true := by
  rw [Entry.outranks_iff, Entry.outranks_iff]
  have : e.source.number ≠ f.source.number := fun h' => h (Source.number_injective h')
  omega

theorem Entry.outranks_trans {e f k : Entry} (h1 : e.outranks f = true) (h2 : f.outranks k = true) :
    e.outranks k = true := by
  rw [Entry.outranks_iff] at *
  omega

theorem mem_insertEntry {e x : Entry} {l : List Entry} : x ∈ insertEntry e l ↔ x = e ∨ x ∈ l := by
  induction l with
  | nil => simp [insertEntry]
  | cons f rest ih =>
    unfold insertEntry
    split
    · simp
    · simp only [List.mem_cons, ih]; tauto

theorem insertEntry_length (e : Entry) (l : List Entry) : (insertEntry e l).length = l.length + 1 := by
  induction l with
  | nil => rfl
  | cons f rest ih => unfold insertEntry; split <;> simp [ih]

/-- An entry of a new source put into an ordered list leaves it ordered. -/
theorem insertEntry_ordered {e : Entry} {l : List Entry} (hl : l.Pairwise (fun a b => a.outranks b = true))
    (hn : ∀ f ∈ l, f.source ≠ e.source) : (insertEntry e l).Pairwise (fun a b => a.outranks b = true) := by
  induction l with
  | nil => simp [insertEntry]
  | cons f rest ih =>
    rw [List.pairwise_cons] at hl
    unfold insertEntry
    split
    · next h =>
      refine List.pairwise_cons.mpr ⟨fun x hx => ?_, List.pairwise_cons.mpr hl⟩
      rcases List.mem_cons.mp hx with rfl | hx
      · exact h
      · exact Entry.outranks_trans h (hl.1 x hx)
    · next h =>
      refine List.pairwise_cons.mpr ⟨fun x hx => ?_, ih hl.2 (fun k hk => hn k (List.mem_cons_of_mem _ hk))⟩
      rcases mem_insertEntry.mp hx with rfl | hx
      · exact (Entry.outranks_total (hn f List.mem_cons_self)).resolve_right h
      · exact hl.1 x hx

theorem AlarmTable.mem_order {t : AlarmTable} {e : Entry} : e ∈ t.order ↔ e ∈ t.entries := by
  unfold AlarmTable.order
  induction t.entries with
  | nil => simp
  | cons f rest ih => simp [List.foldr_cons, mem_insertEntry, ih]

theorem AlarmTable.entry?_eq_none {t : AlarmTable} {src : Source} :
    t.entry? src = none ↔ ∀ e ∈ t.entries, e.source ≠ src := by
  simp [AlarmTable.entry?, List.find?_eq_none]

theorem AlarmTable.latches_iff {t : AlarmTable} {g : Group} :
    t.latches g = true ↔ ∃ e ∈ t.entries, e.action ≠ .note ∧ e.mask.getLsbD g.val = true := by
  simp [AlarmTable.latches]

/-! ### The parts of a raise -/

/-- A group that moves: its state, its engage count and no report; its record and hold cause stay. -/
theorem State.moveGroup_lock (s : State) (g : Group) (st : GroupState) :
    (s.moveGroup g st).interlock =
      (s.onLock g (fun l => { l with state := st, engageCount := 0, reportDue := false })).interlock := by
  unfold State.moveGroup State.discardOutputs
  split <;> rfl

/-- A group that moves to any state but OFF changes its interlock alone. -/
theorem State.moveGroup_of_ne_off (s : State) (g : Group) {st : GroupState} (h : st ≠ .off) :
    s.moveGroup g st = s.onLock g (fun l => { l with state := st, engageCount := 0, reportDue := false }) := by
  unfold State.moveGroup
  rw [if_neg h]

/-- An action never moves a group to OFF, nor out of OFF, UNLOAD or REST. -/
theorem GroupState.under_some {act : Action} {a b : GroupState} (h : a.under act = some b) :
    (act = .hold ∧ (a = .engaging ∨ a = .run) ∧ b = .hold) ∨
    (act = .unload ∧ (a = .engaging ∨ a = .run ∨ a = .hold) ∧ b = .unload) := by
  cases act <;> cases a <;> simp_all [GroupState.under]

/-- An action on one group: it moves the group with its hold cause, or leaves the state as it stands. -/
theorem State.actOn_cases (s : State) (r : Raise) (g : Group) :
    (∃ st, r.mask.getLsbD g.val = true ∧ (s.groupState g).under r.action = some st ∧
      s.actOn r g = s.onLock g (fun l =>
        { l with state := st, engageCount := 0, reportDue := false, cause := some r.cause })) ∨
    ((r.mask.getLsbD g.val = false ∨ (s.groupState g).under r.action = none) ∧ s.actOn r g = s) := by
  unfold State.actOn
  split
  · next hm =>
    split
    · next h => exact .inr ⟨.inr h, rfl⟩
    · next st h =>
      refine .inl ⟨st, hm, h, ?_⟩
      have hne : st ≠ .off := by rcases GroupState.under_some h with ⟨-, -, rfl⟩ | ⟨-, -, rfl⟩ <;> decide
      rw [State.moveGroup_of_ne_off _ _ hne]
      simp only [State.writeCause, State.onLock_onLock]
  · next hm => exact .inr ⟨.inl (by simpa using hm), rfl⟩

/-- An action on one group leaves every other group. -/
theorem State.actOn_lock_of_ne (s : State) (r : Raise) {g h : Group} (hn : h ≠ g) : (s.actOn r g).lock h = s.lock h := by
  rcases s.actOn_cases r g with ⟨st, -, -, e⟩ | ⟨-, e⟩ <;> rw [e]
  simp [State.lock_onLock, hn]

/-- What an action makes of a group's interlock. -/
def Raise.onGroup (r : Raise) (g : Group) (l : GroupLock) : GroupLock :=
  if r.mask.getLsbD g.val then
    match l.state.under r.action with
    | none => l
    | some st => { l with state := st, engageCount := 0, reportDue := false, cause := some r.cause }
  else l

theorem State.onLock_self (s : State) {g : Group} {f : GroupLock → GroupLock} (h : f (s.lock g) = s.lock g) :
    s.onLock g f = s := by
  unfold State.onLock
  have : s.interlock.groups.alter g f = s.interlock.groups := by
    apply Vector.ext_entry
    intro i
    rw [Vector.entry_alter]
    split
    · next e => subst e; exact h
    · rfl
  rw [this]

theorem State.actOn_eq (s : State) (r : Raise) (g : Group) : s.actOn r g = s.onLock g (r.onGroup g) := by
  rcases s.actOn_cases r g with ⟨st, hm, hu, e⟩ | ⟨hn, e⟩
  · rw [e]
    unfold State.onLock
    have : (s.interlock.groups.alter g fun l =>
        { l with state := st, engageCount := 0, reportDue := false, cause := some r.cause }) =
        s.interlock.groups.alter g (r.onGroup g) := by
      apply Vector.ext_entry
      intro i
      simp only [Vector.entry_alter]
      split
      · next h =>
        subst h
        have hu' : (s.interlock.groups.entry i).state.under r.action = some st := hu
        simp only [Raise.onGroup, hm, if_true, hu']
      · rfl
    rw [this]
  · rw [e, State.onLock_self]
    unfold Raise.onGroup
    rcases hn with hn | hn
    · rw [hn]; rfl
    · have hn' : (s.lock g).state.under r.action = none := hn
      rw [hn']
      split <;> rfl

/-- The interlock of every group replaced. -/
def State.withLocks (s : State) (groups : Vector GroupLock 6) : State :=
  { s with interlock := { s.interlock with groups := groups } }

theorem State.onLock_withLocks (s : State) (groups : Vector GroupLock 6) (g : Group) (f : GroupLock → GroupLock) :
    (s.withLocks groups).onLock g f = s.withLocks (groups.alter g f) := rfl

/-- An action taken on its mask: every group as `Raise.onGroup` says, and nothing else (R82). -/
theorem State.takeAction_eq (s : State) (r : Raise) :
    s.takeAction r = s.withLocks (s.interlock.groups.alterAll r.onGroup) := by
  have h : s.takeAction r = ((((((s.withLocks s.interlock.groups).actOn r 0).actOn r 1).actOn r 2).actOn r 3).actOn r
      4).actOn r 5 := rfl
  rw [h]
  simp only [State.actOn_eq, State.onLock_withLocks]
  congr 1
  apply Vector.ext_entry
  intro i
  simp only [Vector.entry_alter, Vector.entry_alterAll]
  fin_cases i <;> rfl

/-- An action taken on its mask leaves a group in OFF exactly where it found it there. -/
theorem Raise.onGroup_off (r : Raise) (g : Group) (l : GroupLock) : (r.onGroup g l).state = .off ↔ l.state = .off := by
  unfold Raise.onGroup
  split
  · split
    · rfl
    · next st h =>
      rcases GroupState.under_some h with ⟨-, h1, rfl⟩ | ⟨-, h1, rfl⟩
      · rcases h1 with h1 | h1 <;> simp [h1]
      · rcases h1 with h1 | h1 | h1 <;> simp [h1]
  · rfl

@[simp] theorem Raise.onGroup_record (r : Raise) (g : Group) (l : GroupLock) : (r.onGroup g l).record = l.record := by
  unfold Raise.onGroup
  split <;> [split; skip] <;> rfl

/-- A capture asked for: stored at the tail and told to the CAPTURE lines where there is room, and CAPLOST otherwise. -/
theorem State.capture_cases (s : State) (trigger : Trigger) (sweep : Half) :
    (s.captures.queue.length < 32 ∧
      s.capture trigger sweep = { s with
        captures := { s.captures with
          queue := s.captures.queue ++ [s.captureRecord trigger sweep], nextSeq := s.captures.nextSeq + 1 }
        markers := s.markers.alterAll (fun _ m => if m.kind == .capture then { m with timer := some m.width } else m) }) ∨
    (32 ≤ s.captures.queue.length ∧
      s.capture trigger sweep = { s with captures := { s.captures with lost := true } }) := by
  unfold State.capture State.captureFits
  by_cases h : s.captures.queue.length < Config.captureRoom
  · refine .inl ⟨h, ?_⟩
    rw [decide_eq_true h]
    rfl
  · refine .inr ⟨Nat.le_of_not_lt h, ?_⟩
    rw [decide_eq_false h]
    rfl

/-- A raise whose source has an entry changes nothing (R134). -/
theorem State.raised_of_entry {s : State} {r : Raise} (h : (s.alarm.entry? r.source).isSome = true) : s.raised r = s := by
  unfold State.raised
  rw [if_pos h]

/-- A raise whose source has no entry (R133): the entry, the action, and the capture where it asks for one. -/
theorem State.raised_of_none {s : State} {r : Raise} (h : s.alarm.entry? r.source = none) :
    s.raised r =
      let acted : State := { s with alarm := { s.alarm with
        entries := insertEntry (s.newEntry r) s.alarm.entries
        counter := s.alarm.counter + 1 } }.withLocks (s.interlock.groups.alterAll r.onGroup)
      if r.asksCapture then acted.capture (.raised r.source s.alarm.counter) r.sweep else acted := by
  unfold State.raised
  rw [if_neg (by simp [h]), State.takeAction_eq]
  rfl

/-! ### What a raise leaves -/

/-- A capture changes the log and the marker lines alone. -/
theorem State.capture_leaves (s : State) (trigger : Trigger) (sweep : Half) :
    s.capture trigger sweep =
      { s with captures := (s.capture trigger sweep).captures, markers := (s.capture trigger sweep).markers } := by
  rcases s.capture_cases trigger sweep with ⟨-, h⟩ | ⟨-, h⟩ <;> rw [h]

/-- A raise changes the alarm table, the groups' interlock, the capture log and the marker lines alone. -/
theorem State.raised_leaves (s : State) (r : Raise) :
    s.raised r =
      { s with
        alarm := (s.raised r).alarm
        interlock := { s.interlock with groups := (s.raised r).interlock.groups }
        captures := (s.raised r).captures
        markers := (s.raised r).markers } := by
  cases h : s.alarm.entry? r.source with
  | some e => rw [State.raised_of_entry (by simp [h])]
  | none =>
    rw [State.raised_of_none h]
    dsimp only
    split
    · rw [State.capture_leaves]; rfl
    · rfl

/-- Raises taken one after the other change the alarm table, the groups' interlock, the capture log and the marker lines
alone. -/
theorem State.raisedAll_leaves (rs : List Raise) (s : State) :
    s.raisedAll rs =
      { s with
        alarm := (s.raisedAll rs).alarm
        interlock := { s.interlock with groups := (s.raisedAll rs).interlock.groups }
        captures := (s.raisedAll rs).captures
        markers := (s.raisedAll rs).markers } := by
  induction rs generalizing s with
  | nil => rfl
  | cons r rest ih =>
    have e : s.raisedAll (r :: rest) = (s.raised r).raisedAll rest := rfl
    rw [e, ih (s.raised r)]
    generalize ((s.raised r).raisedAll rest) = u
    rw [State.raised_leaves s r]


@[simp] theorem State.raised_pending (s : State) (r : Raise) :
    (s.raised r).pending = s.pending := (congrArg State.pending (s.raised_leaves r)).trans rfl
@[simp] theorem State.raised_unit (s : State) (r : Raise) :
    (s.raised r).unit = s.unit := (congrArg State.unit (s.raised_leaves r)).trans rfl
@[simp] theorem State.raised_outLane (s : State) (r : Raise) :
    (s.raised r).outLane = s.outLane := (congrArg State.outLane (s.raised_leaves r)).trans rfl
@[simp] theorem State.raised_retLane (s : State) (r : Raise) :
    (s.raised r).retLane = s.retLane := (congrArg State.retLane (s.raised_leaves r)).trans rfl
@[simp] theorem State.raised_slotMap (s : State) (r : Raise) :
    (s.raised r).slotMap = s.slotMap := (congrArg State.slotMap (s.raised_leaves r)).trans rfl
@[simp] theorem State.raised_shaper (s : State) (r : Raise) :
    (s.raised r).shaper = s.shaper := (congrArg State.shaper (s.raised_leaves r)).trans rfl
@[simp] theorem State.raised_pages (s : State) (r : Raise) :
    (s.raised r).pages = s.pages := (congrArg State.pages (s.raised_leaves r)).trans rfl
@[simp] theorem State.raised_shapes (s : State) (r : Raise) :
    (s.raised r).shapes = s.shapes := (congrArg State.shapes (s.raised_leaves r)).trans rfl
@[simp] theorem State.raised_cycles (s : State) (r : Raise) :
    (s.raised r).cycles = s.cycles := (congrArg State.cycles (s.raised_leaves r)).trans rfl
@[simp] theorem State.raised_strain (s : State) (r : Raise) :
    (s.raised r).strain = s.strain := (congrArg State.strain (s.raised_leaves r)).trans rfl
@[simp] theorem State.raised_crack (s : State) (r : Raise) :
    (s.raised r).crack = s.crack := (congrArg State.crack (s.raised_leaves r)).trans rfl
@[simp] theorem State.raised_sets (s : State) (r : Raise) :
    (s.raised r).sets = s.sets := (congrArg State.sets (s.raised_leaves r)).trans rfl
@[simp] theorem State.raised_watch (s : State) (r : Raise) :
    (s.raised r).watch = s.watch := (congrArg State.watch (s.raised_leaves r)).trans rfl
@[simp] theorem State.raised_service (s : State) (r : Raise) :
    (s.raised r).service = s.service := (congrArg State.service (s.raised_leaves r)).trans rfl
@[simp] theorem State.actuator_raised (s : State) (r : Raise) (a : Actuator) :
    (s.raised r).actuator a = s.actuator a := (congrArg (fun t => State.actuator t a) (s.raised_leaves r)).trans rfl

@[simp] theorem State.raisedAll_pending (s : State) (rs : List Raise) :
    (s.raisedAll rs).pending = s.pending := (congrArg State.pending (State.raisedAll_leaves rs s)).trans rfl
@[simp] theorem State.raisedAll_unit (s : State) (rs : List Raise) :
    (s.raisedAll rs).unit = s.unit := (congrArg State.unit (State.raisedAll_leaves rs s)).trans rfl
@[simp] theorem State.raisedAll_outLane (s : State) (rs : List Raise) :
    (s.raisedAll rs).outLane = s.outLane := (congrArg State.outLane (State.raisedAll_leaves rs s)).trans rfl
@[simp] theorem State.raisedAll_retLane (s : State) (rs : List Raise) :
    (s.raisedAll rs).retLane = s.retLane := (congrArg State.retLane (State.raisedAll_leaves rs s)).trans rfl
@[simp] theorem State.raisedAll_slotMap (s : State) (rs : List Raise) :
    (s.raisedAll rs).slotMap = s.slotMap := (congrArg State.slotMap (State.raisedAll_leaves rs s)).trans rfl
@[simp] theorem State.raisedAll_shaper (s : State) (rs : List Raise) :
    (s.raisedAll rs).shaper = s.shaper := (congrArg State.shaper (State.raisedAll_leaves rs s)).trans rfl
@[simp] theorem State.raisedAll_pages (s : State) (rs : List Raise) :
    (s.raisedAll rs).pages = s.pages := (congrArg State.pages (State.raisedAll_leaves rs s)).trans rfl
@[simp] theorem State.raisedAll_shapes (s : State) (rs : List Raise) :
    (s.raisedAll rs).shapes = s.shapes := (congrArg State.shapes (State.raisedAll_leaves rs s)).trans rfl
@[simp] theorem State.raisedAll_cycles (s : State) (rs : List Raise) :
    (s.raisedAll rs).cycles = s.cycles := (congrArg State.cycles (State.raisedAll_leaves rs s)).trans rfl
@[simp] theorem State.raisedAll_strain (s : State) (rs : List Raise) :
    (s.raisedAll rs).strain = s.strain := (congrArg State.strain (State.raisedAll_leaves rs s)).trans rfl
@[simp] theorem State.raisedAll_crack (s : State) (rs : List Raise) :
    (s.raisedAll rs).crack = s.crack := (congrArg State.crack (State.raisedAll_leaves rs s)).trans rfl
@[simp] theorem State.raisedAll_sets (s : State) (rs : List Raise) :
    (s.raisedAll rs).sets = s.sets := (congrArg State.sets (State.raisedAll_leaves rs s)).trans rfl
@[simp] theorem State.raisedAll_watch (s : State) (rs : List Raise) :
    (s.raisedAll rs).watch = s.watch := (congrArg State.watch (State.raisedAll_leaves rs s)).trans rfl
@[simp] theorem State.raisedAll_service (s : State) (rs : List Raise) :
    (s.raisedAll rs).service = s.service := (congrArg State.service (State.raisedAll_leaves rs s)).trans rfl
@[simp] theorem State.actuator_raisedAll (s : State) (rs : List Raise) (a : Actuator) :
    (s.raisedAll rs).actuator a = s.actuator a := (congrArg (fun t => State.actuator t a) (State.raisedAll_leaves rs s)).trans rfl

@[simp] theorem State.capture_pending (s : State) (trigger : Trigger) (sweep : Half) :
    (s.capture trigger sweep).pending = s.pending := (congrArg State.pending (s.capture_leaves trigger sweep)).trans rfl
@[simp] theorem State.capture_unit (s : State) (trigger : Trigger) (sweep : Half) :
    (s.capture trigger sweep).unit = s.unit := (congrArg State.unit (s.capture_leaves trigger sweep)).trans rfl
@[simp] theorem State.capture_outLane (s : State) (trigger : Trigger) (sweep : Half) :
    (s.capture trigger sweep).outLane = s.outLane := (congrArg State.outLane (s.capture_leaves trigger sweep)).trans rfl
@[simp] theorem State.capture_retLane (s : State) (trigger : Trigger) (sweep : Half) :
    (s.capture trigger sweep).retLane = s.retLane := (congrArg State.retLane (s.capture_leaves trigger sweep)).trans rfl
@[simp] theorem State.capture_slotMap (s : State) (trigger : Trigger) (sweep : Half) :
    (s.capture trigger sweep).slotMap = s.slotMap := (congrArg State.slotMap (s.capture_leaves trigger sweep)).trans rfl
@[simp] theorem State.capture_shaper (s : State) (trigger : Trigger) (sweep : Half) :
    (s.capture trigger sweep).shaper = s.shaper := (congrArg State.shaper (s.capture_leaves trigger sweep)).trans rfl
@[simp] theorem State.capture_pages (s : State) (trigger : Trigger) (sweep : Half) :
    (s.capture trigger sweep).pages = s.pages := (congrArg State.pages (s.capture_leaves trigger sweep)).trans rfl
@[simp] theorem State.capture_shapes (s : State) (trigger : Trigger) (sweep : Half) :
    (s.capture trigger sweep).shapes = s.shapes := (congrArg State.shapes (s.capture_leaves trigger sweep)).trans rfl
@[simp] theorem State.capture_cycles (s : State) (trigger : Trigger) (sweep : Half) :
    (s.capture trigger sweep).cycles = s.cycles := (congrArg State.cycles (s.capture_leaves trigger sweep)).trans rfl
@[simp] theorem State.capture_strain (s : State) (trigger : Trigger) (sweep : Half) :
    (s.capture trigger sweep).strain = s.strain := (congrArg State.strain (s.capture_leaves trigger sweep)).trans rfl
@[simp] theorem State.capture_crack (s : State) (trigger : Trigger) (sweep : Half) :
    (s.capture trigger sweep).crack = s.crack := (congrArg State.crack (s.capture_leaves trigger sweep)).trans rfl
@[simp] theorem State.capture_sets (s : State) (trigger : Trigger) (sweep : Half) :
    (s.capture trigger sweep).sets = s.sets := (congrArg State.sets (s.capture_leaves trigger sweep)).trans rfl
@[simp] theorem State.capture_watch (s : State) (trigger : Trigger) (sweep : Half) :
    (s.capture trigger sweep).watch = s.watch := (congrArg State.watch (s.capture_leaves trigger sweep)).trans rfl
@[simp] theorem State.capture_service (s : State) (trigger : Trigger) (sweep : Half) :
    (s.capture trigger sweep).service = s.service := (congrArg State.service (s.capture_leaves trigger sweep)).trans rfl
@[simp] theorem State.capture_alarm (s : State) (trigger : Trigger) (sweep : Half) :
    (s.capture trigger sweep).alarm = s.alarm := (congrArg State.alarm (s.capture_leaves trigger sweep)).trans rfl
@[simp] theorem State.capture_interlock (s : State) (trigger : Trigger) (sweep : Half) :
    (s.capture trigger sweep).interlock = s.interlock := (congrArg State.interlock (s.capture_leaves trigger sweep)).trans rfl
@[simp] theorem State.actuator_capture (s : State) (trigger : Trigger) (sweep : Half) (a : Actuator) :
    (s.capture trigger sweep).actuator a = s.actuator a := (congrArg (fun t => State.actuator t a) (s.capture_leaves trigger sweep)).trans rfl

/-! ### What a raise does not read -/

/-- The actuators' part of the interlock replaced. -/
def State.withActs (s : State) (acts : Vector ActuatorLock 16) : State :=
  { s with interlock := { s.interlock with acts := acts } }

/-- A capture reads and changes no actuator's part of the interlock. -/
theorem State.capture_withActs (s : State) (acts : Vector ActuatorLock 16) (trigger : Trigger) (sweep : Half) :
    (s.withActs acts).capture trigger sweep = (s.capture trigger sweep).withActs acts := by
  rcases s.capture_cases trigger sweep with ⟨h, e⟩ | ⟨h, e⟩
  · rcases (s.withActs acts).capture_cases trigger sweep with ⟨_, k⟩ | ⟨h', _⟩
    · rw [e, k]; rfl
    · exact absurd h (Nat.not_lt.2 h')
  · rcases (s.withActs acts).capture_cases trigger sweep with ⟨h', _⟩ | ⟨_, k⟩
    · exact absurd h' (Nat.not_lt.2 h)
    · rw [e, k]; rfl

/-- A raise reads and changes no actuator's part of the interlock. -/
theorem State.raised_withActs (s : State) (acts : Vector ActuatorLock 16) (r : Raise) :
    (s.withActs acts).raised r = (s.raised r).withActs acts := by
  cases h : s.alarm.entry? r.source with
  | some e =>
    have h' : (s.alarm.entry? r.source).isSome = true := h ▸ rfl
    rw [State.raised_of_entry h']
    exact State.raised_of_entry (s := s.withActs acts) h'
  | none =>
    rw [State.raised_of_none h, State.raised_of_none (s := s.withActs acts) h]
    dsimp only
    split
    · exact State.capture_withActs ((s.makeEntry r).withLocks (s.interlock.groups.alterAll r.onGroup)) acts _ _
    · rfl

/-- A capture reads and changes nothing of the return lane. -/
theorem State.capture_onReturn (s : State) (f : Lane → Lane) (trigger : Trigger) (sweep : Half) :
    (s.onLane .ret f).capture trigger sweep = (s.capture trigger sweep).onLane .ret f := by
  rcases s.capture_cases trigger sweep with ⟨h, e⟩ | ⟨h, e⟩
  · rcases (s.onLane .ret f).capture_cases trigger sweep with ⟨_, k⟩ | ⟨h', _⟩
    · rw [e, k]; rfl
    · exact absurd h (Nat.not_lt.2 h')
  · rcases (s.onLane .ret f).capture_cases trigger sweep with ⟨h', _⟩ | ⟨_, k⟩
    · exact absurd h' (Nat.not_lt.2 h)
    · rw [e, k]; rfl

/-- A raise reads and changes nothing of the return lane. -/
theorem State.raised_onReturn (s : State) (f : Lane → Lane) (r : Raise) :
    (s.onLane .ret f).raised r = (s.raised r).onLane .ret f := by
  cases h : s.alarm.entry? r.source with
  | some e =>
    have h' : (s.alarm.entry? r.source).isSome = true := h ▸ rfl
    rw [State.raised_of_entry h']
    exact State.raised_of_entry (s := s.onLane .ret f) h'
  | none =>
    rw [State.raised_of_none h, State.raised_of_none (s := s.onLane .ret f) h]
    dsimp only
    split
    · exact State.capture_onReturn ((s.makeEntry r).withLocks (s.interlock.groups.alterAll r.onGroup)) f _ _
    · rfl

/-- Raises read and change nothing of the return lane. -/
theorem State.raisedAll_onReturn (rs : List Raise) (s : State) (f : Lane → Lane) :
    (s.onLane .ret f).raisedAll rs = (s.raisedAll rs).onLane .ret f := by
  induction rs generalizing s with
  | nil => rfl
  | cons r rest ih =>
    show ((s.onLane .ret f).raised r).raisedAll rest = _
    rw [State.raised_onReturn, ih]
    rfl

/-- Raises read and change no actuator's part of the interlock. -/
theorem State.raisedAll_withActs (rs : List Raise) (s : State) (acts : Vector ActuatorLock 16) :
    (s.withActs acts).raisedAll rs = (s.raisedAll rs).withActs acts := by
  induction rs generalizing s with
  | nil => rfl
  | cons r rest ih =>
    show ((s.withActs acts).raised r).raisedAll rest = _
    rw [State.raised_withActs, ih]
    rfl

end Sys2Proof.Machine
end

