-- ==== Sys2Proof/Laws/Arith.lean ====
section
/-! SUPPORT. What the shared arithmetic can do, said once: saturating counts, clamping, the slew limit, rounding, bytes. -/

namespace Sys2Proof.Machine

open Sys2Proof

theorem countUp_le (top n : Nat) : n ≤ countUp top n := by unfold countUp; split <;> omega

theorem countUp_bound {top n : Nat} (h : n ≤ top) : countUp top n ≤ top := by unfold countUp; split <;> omega

theorem clampInt_eq {lo hi x : Int} (h : lo ≤ hi) : clampInt lo hi x = max lo (min hi x) := by
  unfold clampInt; split <;> [skip; split] <;> omega

/-- A move under the slew limit lies within it, goes toward the target and no further, and goes as far as it can. -/
theorem slewTo_spec (limit : Nat) (prev target : Int) :
    (slewTo limit prev target - prev).natAbs ≤ limit ∧
    min prev target ≤ slewTo limit prev target ∧ slewTo limit prev target ≤ max prev target ∧
    ((target - prev).natAbs ≤ limit → slewTo limit prev target = target) ∧
    (limit < (target - prev).natAbs → (slewTo limit prev target - prev).natAbs = limit) := by
  unfold slewTo clampInt
  split <;> [skip; split] <;> omega

/-- The rounded quotient is within one half of the exact one, and at one half lies on the far side from zero. -/
theorem roundDiv_spec (n : Int) {d : Nat} (h : 0 < d) :
    2 * (d * roundDiv n d - n).natAbs ≤ d ∧
    (2 * (d * roundDiv n d - n).natAbs = d → n.natAbs < (d * roundDiv n d).natAbs) := by
  have hd : (0 : Int) < 2 * d := by omega
  unfold roundDiv
  split
  · have h1 := Int.mul_ediv_add_emod (2 * n + d) (2 * d)
    have h2 := Int.emod_nonneg (2 * n + d) (ne_of_gt hd)
    have h3 := Int.emod_lt_of_pos (2 * n + d) hd
    rw [mul_assoc] at h1
    generalize (d : Int) * ((2 * n + d) / (2 * d)) = p at *
    omega
  · have h1 := Int.mul_ediv_add_emod (2 * -n + d) (2 * d)
    have h2 := Int.emod_nonneg (2 * -n + d) (ne_of_gt hd)
    have h3 := Int.emod_lt_of_pos (2 * -n + d) hd
    rw [mul_assoc] at h1
    rw [mul_neg]
    generalize (d : Int) * ((2 * -n + d) / (2 * d)) = p at *
    omega

theorem accumulate_bound (a decay hits : Nat) : accumulate a decay hits ≤ Config.accumulatorMax := min_le_left _ _

/-! ### Bytes (R24) -/

theorem halfOf_halfBytes (h : Half) : halfOf (h.extractLsb' 0 8) (h.extractLsb' 8 8) = h := by
  unfold halfOf
  ext i hi
  simp only [BitVec.getElem_append, BitVec.getElem_extractLsb']
  split
  · simp only [Nat.zero_add]; exact BitVec.getLsbD_eq_getElem hi
  · have : 8 + (i - 8) = i := by omega
    rw [this]; exact BitVec.getLsbD_eq_getElem hi

theorem getLsbD_four (a b c d : Byte) (i : Nat) :
    (a ++ b ++ c ++ d).getLsbD i =
      if i < 8 then d.getLsbD i else if i < 16 then c.getLsbD (i - 8) else if i < 24 then b.getLsbD (i - 16)
        else a.getLsbD (i - 24) := by
  simp only [BitVec.getLsbD_append]
  rcases (by omega : i < 8 ∨ 8 ≤ i ∧ i < 16 ∨ 16 ≤ i ∧ i < 24 ∨ 24 ≤ i) with h | h | h | h
  · simp [h]
  · simp [show ¬ i < 8 by omega, show i - 8 < 8 by omega, h.2]
  · simp [show ¬ i < 8 by omega, show ¬ i - 8 < 8 by omega, show i - 16 < 8 by omega, show ¬ i < 16 by omega, h.2,
      show i - 8 - 8 = i - 16 by omega]
  · simp [show ¬ i < 8 by omega, show ¬ i - 8 < 8 by omega, show ¬ i - 8 - 8 < 8 by omega, show ¬ i < 16 by omega,
      show ¬ i < 24 by omega, show i - 8 - 8 - 8 = i - 24 by omega]

theorem wordOf_wordBytes (w : Word) :
    wordOf (w.extractLsb' 0 8) (w.extractLsb' 8 8) (w.extractLsb' 16 8) (w.extractLsb' 24 8) = w := by
  apply BitVec.eq_of_getLsbD_eq
  intro i hi
  refine (getLsbD_four _ _ _ _ i).trans ?_
  simp only [BitVec.getLsbD_extractLsb']
  split <;> [skip; split <;> [skip; split]]
  · simp [*]
  · rw [show 8 + (i - 8) = i by omega]; simp; omega
  · rw [show 16 + (i - 16) = i by omega]; simp; omega
  · rw [show 24 + (i - 24) = i by omega]; simp; omega

theorem halfBytes_halfOf (a b : Byte) : halfBytes (halfOf a b) = [a, b] := by
  unfold halfBytes halfOf
  refine List.cons_eq_cons.2 ⟨?_, List.cons_eq_cons.2 ⟨?_, rfl⟩⟩ <;>
  · apply BitVec.eq_of_getLsbD_eq; intro i hi
    simp only [BitVec.getLsbD_extractLsb', hi, decide_true, Bool.true_and]
    refine BitVec.getLsbD_append.trans ?_
    first
    | rw [if_pos (by omega)]; congr 1; omega
    | rw [if_neg (by omega)]; congr 1; omega

theorem wordBytes_wordOf (a b c d : Byte) : wordBytes (wordOf a b c d) = [a, b, c, d] := by
  unfold wordBytes wordOf
  refine List.cons_eq_cons.2 ⟨?_, List.cons_eq_cons.2 ⟨?_, List.cons_eq_cons.2 ⟨?_, List.cons_eq_cons.2 ⟨?_, rfl⟩⟩⟩⟩ <;>
  · apply BitVec.eq_of_getLsbD_eq; intro i hi
    simp only [BitVec.getLsbD_extractLsb', hi, decide_true, Bool.true_and]
    refine (getLsbD_four _ _ _ _ _).trans ?_
    first
    | rw [if_pos (by omega)]; congr 1; omega
    | rw [if_neg (by omega), if_pos (by omega)]; congr 1; omega
    | rw [if_neg (by omega), if_neg (by omega), if_pos (by omega)]; congr 1; omega
    | rw [if_neg (by omega), if_neg (by omega), if_neg (by omega)]; congr 1; omega

theorem toNat_ofNat_byte {n : Nat} (h : n ≤ 255) : (BitVec.ofNat 8 n).toNat = n := by
  rw [BitVec.toNat_ofNat]; omega

@[simp] theorem halfBytes_length (h : Half) : (halfBytes h).length = 2 := rfl
@[simp] theorem wordBytes_length (w : Word) : (wordBytes w).length = 4 := rfl

end Sys2Proof.Machine
end

