-- ==== Sys2Proof/Laws/Items.lean ====
section
/-! SUPPORT. What a service command does, said once: from what its body answers on the state with the qualifier spent to the
state answered. -/

namespace Sys2Proof.Machine

open Sys2Proof

@[simp] theorem ServiceHandler.spent_quiet (v : ServiceHandler) : v.spent.quiet = false := rfl
@[simp] theorem ServiceHandler.spent_page (v : ServiceHandler) : v.spent.page = none := rfl
@[simp] theorem ServiceHandler.spent_results (v : ServiceHandler) : v.spent.results = v.results := rfl
@[simp] theorem ServiceHandler.withResult_results (v : ServiceHandler) (r : ItemResult) :
    (v.withResult r).results = v.results ++ [r] := rfl

/-- Two changes of the handler that agree on it agree on the state. -/
theorem State.onService_congr {t : State} {f k : ServiceHandler → ServiceHandler} (h : f t.service = k t.service) :
    t.onService f = t.onService k := by
  unfold State.onService
  rw [h]

/-- A command whose body, taken on the state with the qualifier spent, answers `result` and `words` and leaves `t` with the
qualifier spent, answers from `t`. -/
theorem State.command_eq_answered {s t : State} {code : Byte} {index : Half}
    {body : Option (Fin 4) → State → Answer} {result : ResultCode} {words : List Word}
    (h : body s.service.page (s.onService ServiceHandler.spent) =
      { code := result, words := words, state := t.onService ServiceHandler.spent })
    (hq : t.service.quiet = s.service.quiet) :
    s.command code index body = t.answered code index result words := by
  unfold State.command State.answered
  rw [h]
  simp only [State.onService_onService]
  by_cases hc : s.service.quiet = true ∧ result = .ok
  · rw [if_pos hc]
    exact State.onService_congr (by rw [if_pos (by rwa [hq])])
  · rw [if_neg hc]
    exact State.onService_congr (by rw [if_neg (by rwa [hq])])

/-- A refused command answers from the state it was given. -/
theorem State.command_refused {s : State} {code : Byte} {index : Half} {body : Option (Fin 4) → State → Answer}
    {result : ResultCode}
    (h : body s.service.page (s.onService ServiceHandler.spent) =
      refuse (s.onService ServiceHandler.spent) result) :
    s.command code index body = s.answered code index result [] :=
  State.command_eq_answered h rfl

/-- A command that answers OK without words. -/
theorem State.command_done {s t : State} {code : Byte} {index : Half} {body : Option (Fin 4) → State → Answer}
    (h : body s.service.page (s.onService ServiceHandler.spent) = done (t.onService ServiceHandler.spent))
    (hq : t.service.quiet = s.service.quiet) :
    s.command code index body = t.answered code index .ok [] :=
  State.command_eq_answered h hq

/-- The results of a command: those that stood, and its own unless it was quiet and OK. -/
theorem State.answered_results (s : State) (code : Byte) (index : Half) (result : ResultCode) (words : List Word) :
    (s.answered code index result words).service.results =
      if s.service.quiet = true ∧ result = .ok then s.service.results
      else s.service.results ++ [{ code := code, result := result, index := index, words := words }] := by
  unfold State.answered
  simp only [State.onService_service]
  split <;> rfl

/-- The place of a number from 1. -/
theorem numbered?_of_eq {n k : Nat} {i : Fin n} (h : k = i.val + 1) : numbered? n k = some i := by
  subst h
  simp [numbered?]

/-- The place of a number from 0. -/
theorem indexed?_of_eq {n k : Nat} {i : Fin n} (h : k = i.val) : indexed? n k = some i := by
  subst h
  simp [indexed?]

end Sys2Proof.Machine
end

