-- ==== Sys2Proof/Laws/Lanes.lean ====
section
/-! SUPPORT. What the lanes, their ports and the frames can do, said once. -/

namespace Sys2Proof.Machine

open Sys2Proof

/-! ### Lanes -/

theorem Lane.next?_eq_some {l : Lane} {w : Waiting} :
    l.next? = some w ↔ l.hand = none ∧ l.waiting.head? = some w ∧ w.bypassed = false := by
  unfold Lane.next?
  split
  · next u rest h1 h2 =>
    rw [h1, h2]
    by_cases h : u.bypassed = true
    · simp only [h, if_true, List.head?_cons, Option.some.injEq, true_and]
      constructor
      · intro e; cases e
      · rintro ⟨rfl, e⟩; rw [h] at e; cases e
    · rw [if_neg h]
      simp only [List.head?_cons, Option.some.injEq, true_and]
      constructor
      · rintro rfl; exact ⟨rfl, by simpa using h⟩
      · exact fun e => e.1
  · next h =>
    constructor
    · intro e; cases e
    · rintro ⟨h1, h2, -⟩
      cases hw : l.waiting with
      | nil => rw [hw] at h2; cases h2
      | cons u rest => exact absurd hw (h u rest h1)

/-- What a port makes of a lane: a ready frame begins its sending, and every other lane stays. -/
theorem Lane.startSending_cases (l : Lane) :
    (∃ bytes, l.hand = some (.ready bytes) ∧ l.startSending = { l with hand := some (.sending bytes) }) ∨
    (l.isReady = false ∧ l.startSending = l) := by
  unfold Lane.startSending Lane.isReady
  split
  · next bytes h => exact .inl ⟨bytes, h, rfl⟩
  · next h =>
    exact .inr ⟨rfl, rfl⟩

/-- A lane takes a frame by itself only if it has nothing in hand and the frame at its head arrived in bypass. -/
theorem Lane.takeBypassed_cases (l : Lane) :
    (∃ w rest, l.hand = none ∧ l.waiting = w :: rest ∧ w.bypassed = true ∧
      l.takeBypassed = { l with hand := some (.ready w.bytes), waiting := rest }) ∨ l.takeBypassed = l := by
  unfold Lane.takeBypassed
  split
  · next w rest h1 h2 =>
    split
    · next h => exact .inl ⟨w, rest, h1, h2, h, rfl⟩
    · exact .inr rfl
  · exact .inr rfl

@[simp] theorem Lane.startSending_waiting (l : Lane) : l.startSending.waiting = l.waiting := by
  rcases l.startSending_cases with ⟨b, -, e⟩ | ⟨-, e⟩ <;> rw [e]
@[simp] theorem Lane.startSending_badFrames (l : Lane) : l.startSending.badFrames = l.badFrames := by
  rcases l.startSending_cases with ⟨b, -, e⟩ | ⟨-, e⟩ <;> rw [e]
@[simp] theorem Lane.startSending_bypass (l : Lane) : l.startSending.bypass = l.bypass := by
  rcases l.startSending_cases with ⟨b, -, e⟩ | ⟨-, e⟩ <;> rw [e]

theorem Lane.takeBypassed_waiting_le (l : Lane) : l.takeBypassed.waiting.length ≤ l.waiting.length := by
  rcases l.takeBypassed_cases with ⟨w, rest, -, h, -, e⟩ | e <;> rw [e]
  rw [h]; simp
@[simp] theorem Lane.takeBypassed_badFrames (l : Lane) : l.takeBypassed.badFrames = l.badFrames := by
  rcases l.takeBypassed_cases with ⟨w, rest, -, -, -, e⟩ | e <;> rw [e]

/-- The outbound port touches the outbound lane alone. -/
theorem State.startPort_outbound (s : State) :
    s.startPort .outbound = { s with outLane := s.outLane.startSending } := rfl

/-- RET-OUT: it stays as it is, begins the lane's ready frame, or begins the head reply. -/
theorem State.startPort_ret_cases (s : State) :
    ((s.retLane.isSending || s.service.replySending) = true ∧ s.startPort .ret = s) ∨
    (∃ bytes, s.service.replySending = false ∧ s.retLane.hand = some (.ready bytes) ∧
      s.startPort .ret = { s with retLane := { s.retLane with hand := some (.sending bytes) } }) ∨
    (s.retLane.isSending = false ∧ s.service.replySending = false ∧ s.retLane.isReady = false ∧
      s.startPort .ret = { s with service := { s.service with replySending := !s.service.replies.isEmpty } }) := by
  have e : s.startPort .ret =
      if s.retLane.isSending || s.service.replySending then s
      else if s.retLane.isReady then s.onLane .ret Lane.startSending
      else if s.service.replies.isEmpty then s
      else s.onService (fun v => { v with replySending := true }) := rfl
  rw [e]
  by_cases h : (s.retLane.isSending || s.service.replySending) = true
  · exact .inl ⟨h, if_pos h⟩
  · rw [if_neg h]
    obtain ⟨h1, h2⟩ : s.retLane.isSending = false ∧ s.service.replySending = false := by simpa using h
    by_cases hr : s.retLane.isReady = true
    · rw [if_pos hr]
      rcases s.retLane.startSending_cases with ⟨bytes, hb, e⟩ | ⟨hn, -⟩
      · exact .inr (.inl ⟨bytes, h2, hb, by rw [State.onLane_ret, e]⟩)
      · rw [hr] at hn; cases hn
    · rw [if_neg hr]
      refine .inr (.inr ⟨h1, h2, by simpa using hr, ?_⟩)
      by_cases he : s.service.replies.isEmpty = true
      · rw [if_pos he, he]
        simp only [Bool.not_true]
        rw [← h2]
      · rw [if_neg he, Bool.not_eq_true _ |>.mp he]
        rfl

/-! ### CRC (R2) -/

/-- One step of the register is linear. -/
theorem crcShift_xor (x y : Word) : crcShift (x ^^^ y) = crcShift x ^^^ crcShift y := by
  unfold crcShift
  rw [BitVec.getLsbD_xor, BitVec.ushiftRight_xor_distrib]
  generalize x >>> 1 = p
  generalize y >>> 1 = q
  cases x.getLsbD 0 <;> cases y.getLsbD 0 <;> simp [BitVec.xor_assoc, BitVec.xor_comm]
  rw [← BitVec.xor_assoc, BitVec.xor_comm p q, BitVec.xor_assoc]

/-- A byte fed whole is its bits fed from the least significant, each into the bit that leaves the register. -/
theorem crcByte_bits (r : Word) (b : Byte) :
    crcByte r b = (List.range 8).foldl (fun r i => crcShift (r ^^^ (BitVec.ofBool (b.getLsbD i)).setWidth 32)) r := by
  have cut : ∀ (c r : Word), c.msb = false → crcShift (r ^^^ (c <<< 1)) = crcShift r ^^^ c := by
    intro c r h
    rw [crcShift_xor]
    congr 1
    unfold crcShift
    rw [if_neg (by simp)]
    apply BitVec.eq_of_getLsbD_eq; intro i hi
    by_cases h31 : i = 31
    · subst h31; rw [BitVec.msb_eq_getLsbD_last] at h; simp at h ⊢; exact h
    · simp; omega
  have split : ∀ (c r : Word), c.msb = false → 
      crcShift (r ^^^ c) = crcShift (r ^^^ (BitVec.ofBool (c.getLsbD 0)).setWidth 32) ^^^ (c >>> 1) := by
    intro c r h
    rw [← cut (c >>> 1) _ (by simp)]
    congr 1
    rw [BitVec.xor_assoc]
    congr 1
    apply BitVec.eq_of_getLsbD_eq; intro i hi
    cases i with
    | zero => simp
    | succ n =>
      have : 1 + n = n + 1 := by omega
      simp [this]
      intro _; omega
  have next : ∀ (n : Nat) (r : Word), n < 8 → crcShift (r ^^^ (b.setWidth 32 >>> n)) =
      crcShift (r ^^^ (BitVec.ofBool (b.getLsbD n)).setWidth 32) ^^^ (b.setWidth 32 >>> (n + 1)) := by
    intro n r h
    rw [split _ _ (by simp [BitVec.msb_eq_getLsbD_last]), BitVec.shiftRight_add]
    simp [show n < 32 by omega]
  have e0 : b.setWidth 32 = b.setWidth 32 >>> 0 := by simp
  have e8 : b.setWidth 32 >>> 8 = 0#32 := by
    apply BitVec.eq_of_getLsbD_eq; intro i hi; simp
  unfold crcByte
  rw [e0, next 0 _ (by decide), next 1 _ (by decide), next 2 _ (by decide), next 3 _ (by decide), next 4 _ (by decide),
    next 5 _ (by decide), next 6 _ (by decide), next 7 _ (by decide), e8, BitVec.xor_zero]
  rfl

/-- One bit of R2 as it reads, with the coefficient of the highest power in the top bit: the register the part keeps is its
mirror image. -/
theorem crcShift_reverse (r : Word) (b : Bool) :
    crcShift (r.reverse ^^^ (BitVec.ofBool b).setWidth 32) =
      (if r.msb != b then (r <<< 1) ^^^ 0x04C11DB7#32 else r <<< 1).reverse := by
  have h0 : (r.reverse ^^^ (BitVec.ofBool b).setWidth 32).getLsbD 0 = (r.msb != b) := by
    rw [BitVec.getLsbD_xor, BitVec.getLsbD_reverse]
    cases b <;> simp [BitVec.msb_eq_getLsbD_last, BitVec.getMsbD_eq_getLsbD]
  have h1 : (r.reverse ^^^ (BitVec.ofBool b).setWidth 32) >>> 1 = (r <<< 1).reverse := by
    apply BitVec.eq_of_getLsbD_eq; intro i hi
    rw [BitVec.getLsbD_ushiftRight, BitVec.getLsbD_xor, BitVec.getLsbD_reverse, BitVec.getLsbD_reverse,
      BitVec.getMsbD_shiftLeft]
    cases b <;> simp [Nat.add_comm 1 i]
  have hx : ∀ x y : Word, (x ^^^ y).reverse = x.reverse ^^^ y.reverse := by
    intro x y
    apply BitVec.eq_of_getLsbD_eq; intro i hi
    simp [BitVec.getLsbD_reverse, BitVec.getMsbD_xor]
  unfold crcShift
  rw [h0, h1]
  split
  · rw [hx, show (0x04C11DB7#32).reverse = 0xEDB88320#32 by decide +kernel]
  · rfl

/-! ### Frames -/

theorem sealFrame_length (body : List Byte) : (sealFrame body).length = body.length + 4 := by
  simp [sealFrame]

/-- The bytes of a sealed frame before its CRC are its body, and the CRC is over them. -/
theorem sealFrame_take_drop (body : List Byte) :
    (sealFrame body).take body.length = body ∧ (sealFrame body).drop body.length = wordBytes (crc32 body) := by
  simp [sealFrame]

@[simp] theorem slotBytes_length (sl : Slot) : (slotBytes sl).length = 8 := rfl

theorem slotsBytes_length (slots : List Slot) : ((slots.map slotBytes).flatten).length = 8 * slots.length := by
  induction slots with
  | nil => rfl
  | cons sl rest ih => simp only [List.map_cons, List.flatten_cons, List.length_append, ih, slotBytes_length,
      List.length_cons]; omega

/-- A slot written as bytes is read back, whatever follows it. -/
theorem readSlots_cons (n : Nat) (sl : Slot) (rest : List Byte) :
    readSlots (n + 1) (slotBytes sl ++ rest) = sl :: readSlots n rest := by
  have h : readSlots (n + 1) (slotBytes sl ++ rest) =
      { number := halfOf (sl.number.extractLsb' 0 8) (sl.number.extractLsb' 8 8), kind := sl.kind, quality := sl.quality
        value := wordOf (sl.value.extractLsb' 0 8) (sl.value.extractLsb' 8 8) (sl.value.extractLsb' 16 8)
          (sl.value.extractLsb' 24 8) } :: readSlots n rest := rfl
  rw [h, halfOf_halfBytes, wordOf_wordBytes]

/-- Words written as bytes are read back, whatever follows them. -/
theorem readWords_append (ws : List Word) (rest : List Byte) :
    readWords ws.length ((ws.map wordBytes).flatten ++ rest) = ws := by
  induction ws with
  | nil => rfl
  | cons w ws ih =>
    have e : readWords (ws.length + 1) (wordBytes w ++ ((ws.map wordBytes).flatten ++ rest)) =
        wordOf (w.extractLsb' 0 8) (w.extractLsb' 8 8) (w.extractLsb' 16 8) (w.extractLsb' 24 8)
          :: readWords ws.length ((ws.map wordBytes).flatten ++ rest) := rfl
    rw [List.map_cons, List.flatten_cons, List.append_assoc, List.length_cons, e, ih, wordOf_wordBytes]

theorem wordsBytes_length (ws : List Word) : ((ws.map wordBytes).flatten).length = 4 * ws.length := by
  induction ws with
  | nil => rfl
  | cons w ws ih => rw [List.map_cons, List.flatten_cons, List.length_append, ih, List.length_cons]; simp [wordBytes]; omega

/-- Words are read from bytes as they stand there. -/
theorem readWords_eq : ∀ (n : Nat) {bs : List Byte}, 4 * n ≤ bs.length →
    (readWords n bs).length = n ∧ ((readWords n bs).map wordBytes).flatten = bs.take (4 * n)
  | 0, _, _ => by simp [readWords]
  | n + 1, bs, h => by
    match bs, h with
    | a :: b :: c :: d :: rest, h =>
      obtain ⟨h1, h2⟩ := readWords_eq n (bs := rest) (by simp at h; omega)
      have e : readWords (n + 1) (a :: b :: c :: d :: rest) = wordOf a b c d :: readWords n rest := rfl
      rw [e, List.length_cons, h1, List.map_cons, List.flatten_cons, h2, wordBytes_wordOf]
      exact ⟨rfl, rfl⟩
    | [], h | [_], h | [_, _], h | [_, _, _], h => simp at h; try omega

/-- R3: a walk of items answers exactly the items whose bytes stand there. -/
theorem walkItems_eq_some : ∀ (n : Nat) {bs : List Byte} {items : List Item},
    walkItems n bs = some items ↔
      items.length = n ∧ (∀ it ∈ items, it.args.length ≤ 12) ∧ bs = (items.map itemBytes).flatten
  | 0, bs, items => by
    cases bs <;> cases items <;> simp [walkItems]
  | n + 1, bs, items => by
    have hc : Config.argMax = 12 := rfl
    constructor
    · intro h
      unfold walkItems at h
      dsimp only at h
      split at h
      · cases h
      · next hb =>
        obtain ⟨rest, hr, rfl⟩ := Option.map_eq_some_iff.1 h
        obtain ⟨h1, h2, h3⟩ := (walkItems_eq_some n).1 hr
        match bs, hb, h3 with
        | a :: b :: c :: d :: tl, hb, h3 =>
          have ha : byteAt (a :: b :: c :: d :: tl) 1 = b := rfl
          rw [ha] at h3
          simp only [ha, hc, List.length_cons, not_or, not_lt] at hb
          have hw := readWords_eq b.toNat (bs := tl) (by omega)
          refine ⟨by simp [h1], ?_, ?_⟩
          · rintro it (_ | ⟨_, hm⟩)
            · show (readWords b.toNat tl).length ≤ 12
              omega
            · exact h2 _ hm
          · rw [List.map_cons, List.flatten_cons, ← h3]
            show _ = a :: BitVec.ofNat 8 (readWords b.toNat tl).length ::
              (halfBytes (halfOf c d) ++ ((readWords b.toNat tl).map wordBytes).flatten) ++ _
            rw [hw.1, hw.2, halfBytes_halfOf, BitVec.ofNat_toNat, BitVec.setWidth_eq]
            have e4 : 4 + 4 * b.toNat = 4 * b.toNat + 1 + 1 + 1 + 1 := by omega
            rw [e4]
            simp only [List.drop_succ_cons, List.cons_append, List.nil_append, List.take_append_drop]
        | [], hb, _ | [_], hb, _ | [_, _], hb, _ | [_, _, _], hb, _ => simp at hb
    · rintro ⟨h1, h2, rfl⟩
      match items, h1, h2 with
      | it :: items, h1, h2 =>
        have hl : it.args.length ≤ 12 := h2 it (by simp)
        have hr := (walkItems_eq_some n (bs := (items.map itemBytes).flatten) (items := items)).2
          ⟨by simpa using h1, fun x hx => h2 x (by simp [hx]), rfl⟩
        have hn := toNat_ofNat_byte (show it.args.length ≤ 255 by omega)
        have e : ((it :: items).map itemBytes).flatten =
            it.code :: BitVec.ofNat 8 it.args.length :: it.index.extractLsb' 0 8 :: it.index.extractLsb' 8 8 ::
              ((it.args.map wordBytes).flatten ++ (items.map itemBytes).flatten) := by
          simp [itemBytes, halfBytes]
        rw [e]
        unfold walkItems
        have ha : ∀ tl : List Byte, byteAt (it.code :: BitVec.ofNat 8 it.args.length :: tl) 1
            = BitVec.ofNat 8 it.args.length := fun _ => rfl
        rw [ha, hn, if_neg]
        · have e4 : 4 + 4 * it.args.length = 4 * it.args.length + 1 + 1 + 1 + 1 := by omega
          rw [e4]
          simp only [List.drop_succ_cons, ← wordsBytes_length, List.drop_left, hr, Option.map_some, List.drop_zero,
            readWords_append, Option.some.injEq, List.cons.injEq, and_true]
          show Item.mk it.code (halfOf (it.index.extractLsb' 0 8) (it.index.extractLsb' 8 8)) it.args = it
          rw [halfOf_halfBytes]
        · rw [hc]
          simp only [List.length_cons, List.length_append, wordsBytes_length]
          omega
/-- R3: a walk of results comes to its end exactly where the bytes are those of results, none of more than 12 words. -/
theorem walkResults_iff : ∀ (n : Nat) {bs : List Byte},
    walkResults n bs = true ↔ ∃ results : List (Byte × Byte × Half × List Word), results.length = n ∧
      (∀ r ∈ results, r.2.2.2.length ≤ 12) ∧
      bs = (results.map (fun r =>
        [r.1, r.2.1] ++ halfBytes r.2.2.1 ++ [BitVec.ofNat 8 r.2.2.2.length] ++ (r.2.2.2.map wordBytes).flatten)).flatten
  | 0, bs => by
    constructor
    · intro h; exact ⟨[], rfl, by simp, by simpa [walkResults] using h⟩
    · rintro ⟨rs, h, -, rfl⟩; rw [List.length_eq_zero_iff.1 h]; rfl
  | n + 1, bs => by
    have hc : Config.argMax = 12 := rfl
    constructor
    · intro h
      unfold walkResults at h
      dsimp only at h
      split at h
      · cases h
      · next hb =>
        obtain ⟨rest, h1, h2, h3⟩ := (walkResults_iff n).1 h
        match bs, hb, h3 with
        | a :: b :: c :: d :: e :: tl, hb, h3 =>
          have ha : byteAt (a :: b :: c :: d :: e :: tl) 4 = e := rfl
          rw [ha] at h3
          simp only [ha, hc, List.length_cons, not_or, not_lt] at hb
          have hw := readWords_eq e.toNat (bs := tl) (by omega)
          refine ⟨(a, b, halfOf c d, readWords e.toNat tl) :: rest, by simp [h1], ?_, ?_⟩
          · rintro it (_ | ⟨_, hm⟩)
            · show (readWords e.toNat tl).length ≤ 12
              omega
            · exact h2 _ hm
          · rw [List.map_cons, List.flatten_cons, ← h3, hw.1, hw.2, halfBytes_halfOf, BitVec.ofNat_toNat, BitVec.setWidth_eq]
            have e4 : 5 + 4 * e.toNat = 4 * e.toNat + 1 + 1 + 1 + 1 + 1 := by omega
            rw [e4]
            simp only [List.drop_succ_cons, List.cons_append, List.nil_append, List.take_append_drop]
        | [], hb, _ | [_], hb, _ | [_, _], hb, _ | [_, _, _], hb, _ | [_, _, _, _], hb, _ => simp at hb
    · rintro ⟨results, h1, h2, rfl⟩
      match results, h1, h2 with
      | r :: results, h1, h2 =>
        have hl : r.2.2.2.length ≤ 12 := h2 r (by simp)
        have hr := (walkResults_iff n).2 ⟨results, by simpa using h1, fun x hx => h2 x (by simp [hx]), rfl⟩
        have hn := toNat_ofNat_byte (show r.2.2.2.length ≤ 255 by omega)
        rw [List.map_cons, List.flatten_cons]
        generalize (List.map _ results).flatten = tail at hr ⊢
        have e : [r.1, r.2.1] ++ halfBytes r.2.2.1 ++ [BitVec.ofNat 8 r.2.2.2.length] ++ (r.2.2.2.map wordBytes).flatten
            ++ tail = r.1 :: r.2.1 :: r.2.2.1.extractLsb' 0 8 :: r.2.2.1.extractLsb' 8 8 :: BitVec.ofNat 8 r.2.2.2.length ::
              ((r.2.2.2.map wordBytes).flatten ++ tail) := by
          simp [halfBytes]
        rw [e]
        unfold walkResults
        have ha : ∀ (a b c d x : Byte) (tl : List Byte), byteAt (a :: b :: c :: d :: x :: tl) 4 = x :=
          fun _ _ _ _ _ _ => rfl
        rw [ha, hn, if_neg]
        · have e4 : 5 + 4 * r.2.2.2.length = 4 * r.2.2.2.length + 1 + 1 + 1 + 1 + 1 := by omega
          rw [e4]
          simp only [List.drop_succ_cons, ← wordsBytes_length, List.drop_left, hr]
        · rw [hc]
          simp only [List.length_cons, List.length_append, wordsBytes_length]
          omega

end Sys2Proof.Machine
end

