-- ==== Sys2Proof/Laws/Map.lean ====
section
/-! SUPPORT. What binding and unbinding do to the slot map, said once. -/

namespace Sys2Proof.Machine

open Sys2Proof

theorem mem_insertBinding {b x : Binding} {map : List Binding} : x ∈ insertBinding b map ↔ x = b ∨ x ∈ map := by
  induction map with
  | nil => simp [insertBinding]
  | cons c rest ih =>
    unfold insertBinding
    split
    · simp
    · simp only [List.mem_cons, ih]; tauto

theorem roles_insertBinding (b : Binding) (map : List Binding) :
    ((insertBinding b map).map (·.role)).Perm (b.role :: map.map (·.role)) := by
  induction map with
  | nil => simp [insertBinding]
  | cons c rest ih =>
    unfold insertBinding
    split
    · simp
    · simp only [List.map_cons]
      exact (List.Perm.cons _ ih).trans (List.Perm.swap _ _ _)

/-- A free slot number bound to a free role leaves the map well formed. -/
theorem mapWf_insertBinding {b : Binding} {map : List Binding} (h : mapWf map) (hs : ∀ c ∈ map, c.slot ≠ b.slot)
    (hr : ∀ c ∈ map, c.role ≠ b.role) : mapWf (insertBinding b map) := by
  refine ⟨?_, (roles_insertBinding b map).nodup_iff.mpr (List.nodup_cons.mpr ⟨?_, h.2⟩)⟩
  · have hp := h.1
    clear h hr
    induction map with
    | nil => simp [insertBinding]
    | cons c rest ih =>
      rw [List.pairwise_cons] at hp
      have hne : b.slot.toNat ≠ c.slot.toNat := fun e => hs c List.mem_cons_self (BitVec.eq_of_toNat_eq e.symm)
      unfold insertBinding
      split
      · next hlt =>
        refine List.pairwise_cons.mpr ⟨fun x hx => ?_, List.pairwise_cons.mpr hp⟩
        rcases List.mem_cons.mp hx with rfl | hx
        · exact hlt
        · exact lt_trans hlt (hp.1 x hx)
      · next hlt =>
        refine List.pairwise_cons.mpr ⟨fun x hx => ?_, ih (fun k hk => hs k (List.mem_cons_of_mem _ hk)) hp.2⟩
        rcases mem_insertBinding.mp hx with rfl | hx
        · omega
        · exact hp.1 x hx
  · intro hm
    obtain ⟨c, hc, e⟩ := List.mem_map.mp hm
    exact hr c hc e

/-- A binding removed leaves the map well formed. -/
theorem mapWf_removeBinding {n : Half} {map : List Binding} (h : mapWf map) : mapWf (removeBinding n map) :=
  ⟨h.1.sublist List.filter_sublist, h.2.sublist (List.filter_sublist.map _)⟩

theorem roleAt?_eq_none {map : List Binding} {n : Half} : roleAt? map n = none ↔ ∀ b ∈ map, b.slot ≠ n := by
  simp [roleAt?, List.find?_eq_none]

theorem slotOf?_eq_none {map : List Binding} {r : Role} : slotOf? map r = none ↔ ∀ b ∈ map, b.role ≠ r := by
  simp [slotOf?, List.find?_eq_none]

/-- A role that is present stands at its place in the slots, under the number it is bound to. -/
theorem present?_some {crack : Vector CrackChannel 64} {map : List Binding} {slots : List Slot} {r : Role} {i : Nat}
    {sl : Slot} (h : present? crack map slots r = some (i, sl)) :
    slots[i]? = some sl ∧ slotOf? map r = some sl.number ∧ r.kindMatches crack sl.kind = true := by
  unfold present? at h
  split at h
  · cases h
  · next n hn =>
    split at h
    · cases h
    · next j hj =>
      split at h
      · cases h
      · next t ht =>
        split at h
        · next hk =>
          cases h
          refine ⟨ht, ?_, hk⟩
          obtain ⟨hlt, hp, -⟩ := List.findIdx?_eq_some_iff_getElem.mp hj
          rw [List.getElem?_eq_getElem hlt] at ht
          cases ht
          rw [hn, eq_of_beq hp]
        · cases h

@[simp] theorem putSlot_length (slots : List Slot) (i : Nat) (sl : Slot) : (putSlot slots i sl).length = slots.length := by
  simp [putSlot]

@[simp] theorem Slot.rewrite_number (sl : Slot) (kind : Byte) (q : Quality) (value : Word) :
    (sl.rewrite kind q value).number = sl.number := rfl

end Sys2Proof.Machine
end

