-- ==== Sys2Proof/Laws/Outbound.lean ====
section
/-! SUPPORT. What the stages of the shaper, and the events that fall between groups, leave as they found it, said once. -/

namespace Sys2Proof.Machine

open Sys2Proof

/-- What no stage of the shaper changes: the queue, the unit, the lanes, the map, the shape tables, the return lane's blocks, the
watch, the service handler, the actuator and group records, and which groups are OFF. -/
structure StageKeeps (s t : State) : Prop where
  pending : t.pending = s.pending
  unit : t.unit = s.unit
  outLane : t.outLane = s.outLane
  retLane : t.retLane = s.retLane
  slotMap : t.slotMap = s.slotMap
  lastTaken : t.shaper.lastTaken = s.shaper.lastTaken
  shapes : t.shapes = s.shapes
  strain : t.strain = s.strain
  crack : t.crack = s.crack
  sets : t.sets = s.sets
  watch : t.watch = s.watch
  service : t.service = s.service
  acts : t.interlock.acts = s.interlock.acts
  record : ∀ g : Group, (t.lock g).record = (s.lock g).record
  off : ∀ g : Group, t.groupState g = .off ↔ s.groupState g = .off

theorem StageKeeps.refl (s : State) : StageKeeps s s := by
  constructor <;> first | rfl | (intro g; rfl)

theorem StageKeeps.trans {s t u : State} (h : StageKeeps s t) (k : StageKeeps t u) : StageKeeps s u where
  pending := k.pending.trans h.pending
  unit := k.unit.trans h.unit
  outLane := k.outLane.trans h.outLane
  retLane := k.retLane.trans h.retLane
  slotMap := k.slotMap.trans h.slotMap
  lastTaken := k.lastTaken.trans h.lastTaken
  shapes := k.shapes.trans h.shapes
  strain := k.strain.trans h.strain
  crack := k.crack.trans h.crack
  sets := k.sets.trans h.sets
  watch := k.watch.trans h.watch
  service := k.service.trans h.service
  acts := k.acts.trans h.acts
  record g := (k.record g).trans (h.record g)
  off g := (k.off g).trans (h.off g)

/-- A change of one group's interlock that keeps its record and whether it is OFF. -/
theorem StageKeeps.onLock (s : State) (g : Group) {f : GroupLock → GroupLock}
    (hr : (f (s.lock g)).record = (s.lock g).record) (ho : (f (s.lock g)).state = .off ↔ (s.lock g).state = .off) :
    StageKeeps s (s.onLock g f) := by
  constructor <;> try rfl
  · intro h
    rw [State.lock_onLock]
    split
    · next e => subst e; exact hr
    · rfl
  · intro h
    unfold State.groupState
    rw [State.lock_onLock]
    split
    · next e => subst e; exact ho
    · rfl

theorem StageKeeps.onShape (s : State) (g : Group) (f : GroupShape → GroupShape) : StageKeeps s (s.onShape g f) := by
  constructor <;> first | rfl | (intro g; rfl)
theorem StageKeeps.onOutput (s : State) (a : Actuator) (f : ActuatorOutput → ActuatorOutput) :
    StageKeeps s (s.onOutput a f) := by
  constructor <;> first | rfl | (intro g; rfl)
theorem StageKeeps.onOutputs (s : State) (f : Actuator → ActuatorOutput → ActuatorOutput) :
    StageKeeps s (s.onOutputs f) := by
  constructor <;> first | rfl | (intro g; rfl)
theorem StageKeeps.onPages (s : State) (g : Group) (f : GroupPages → GroupPages) : StageKeeps s (s.onPages g f) := by
  constructor <;> first | rfl | (intro g; rfl)
theorem StageKeeps.onCycles (s : State) (g : Group) (f : GroupCycles → GroupCycles) : StageKeeps s (s.onCycles g f) := by
  constructor <;> first | rfl | (intro g; rfl)
theorem StageKeeps.onAllCycles (s : State) (f : Group → GroupCycles → GroupCycles) :
    StageKeeps s (s.onAllCycles f) := by
  constructor <;> first | rfl | (intro g; rfl)
theorem StageKeeps.tellMarkers (s : State) (named : MarkerLine → Bool) : StageKeeps s (s.tellMarkers named) := by
  constructor <;> first | rfl | (intro g; rfl)
theorem StageKeeps.capture (s : State) (trigger : Trigger) (sweep : Half) :
    StageKeeps s (s.capture trigger sweep) := by
  rw [s.capture_leaves]
  constructor <;> first | rfl | (intro g; rfl)

/-- The interlock of every group after a raise: as it was, or as `Raise.onGroup` has it. -/
theorem State.lock_raised (s : State) (r : Raise) (g : Group) :
    (s.raised r).lock g = if (s.alarm.entry? r.source).isSome then s.lock g else r.onGroup g (s.lock g) := by
  cases h : s.alarm.entry? r.source with
  | some e => rw [State.raised_of_entry (by simp [h])]; rfl
  | none =>
    have e : (s.raised r).interlock.groups = s.interlock.groups.alterAll r.onGroup := by
      rw [State.raised_of_none h]
      dsimp only
      split
      · rw [State.capture_interlock]; rfl
      · rfl
    unfold State.lock
    rw [e]
    exact Vector.entry_alterAll _ _ _

theorem StageKeeps.raised (s : State) (r : Raise) : StageKeeps s (s.raised r) where
  pending := by simp
  unit := by simp
  outLane := by simp
  retLane := by simp
  slotMap := by simp
  lastTaken := by simp
  shapes := by simp
  strain := by simp
  crack := by simp
  sets := by simp
  watch := by simp
  service := by simp
  acts := (congrArg (fun t : State => t.interlock.acts) (s.raised_leaves r)).trans rfl
  record g := by rw [State.lock_raised]; split <;> simp
  off g := by
    unfold State.groupState
    rw [State.lock_raised]
    split
    · rfl
    · exact Raise.onGroup_off r g _

/-! ### Stages -/

/-- What no stage changes of the sweep in hand, beside what it leaves of the state. -/
structure Shaping.Keeps (x y : Shaping) : Prop where
  state : StageKeeps x.state y.state
  received : y.received = x.received
  number : y.number = x.number
  cycling : y.cycling = x.cycling
  length : y.slots.length = x.slots.length

theorem Shaping.Keeps.refl (x : Shaping) : x.Keeps x := ⟨StageKeeps.refl _, rfl, rfl, rfl, rfl⟩

theorem Shaping.Keeps.trans {x y z : Shaping} (h : x.Keeps y) (k : y.Keeps z) : x.Keeps z :=
  ⟨h.state.trans k.state, k.received.trans h.received, k.number.trans h.number, k.cycling.trans h.cycling,
    k.length.trans h.length⟩

/-- A change of the state alone. -/
theorem Shaping.Keeps.ofState {x : Shaping} {s : State} (h : StageKeeps x.state s) : x.Keeps { x with state := s } :=
  ⟨h, rfl, rfl, rfl, rfl⟩

theorem Shaping.Keeps.foldl {α : Type} {f : Shaping → α → Shaping} (h : ∀ (x : Shaping) (a : α), x.Keeps (f x a)) (l : List α) (x : Shaping) :
    x.Keeps (l.foldl f x) := by
  induction l generalizing x with
  | nil => exact Shaping.Keeps.refl x
  | cons a rest ih => exact (h x a).trans (ih (f x a))

theorem StageKeeps.foldl {α : Type} {f : State → α → State} (h : ∀ s a, StageKeeps s (f s a)) (l : List α) (s : State) :
    StageKeeps s (l.foldl f s) := by
  induction l generalizing s with
  | nil => exact StageKeeps.refl s
  | cons a rest ih => exact (h s a).trans (ih (f s a))

theorem Shaping.stage1_keeps (x : Shaping) (g : Group) : x.Keeps (x.stage1 g) := by
  unfold Shaping.stage1
  split <;> split
  · exact ⟨StageKeeps.onShape _ _ _, rfl, rfl, rfl, rfl⟩
  · exact .refl x
  · exact ⟨StageKeeps.refl _, rfl, rfl, rfl, rfl⟩
  · exact .refl x

theorem Shaping.countCycle_keeps (x : Shaping) (g : Group) : x.Keeps (x.countCycle g) :=
  .ofState (StageKeeps.onAllCycles _ _)

theorem Shaping.endAction_keeps (x : Shaping) (lead : Group) (what : Option (Action × CauseKind)) :
    x.Keeps (x.endAction lead what) := by
  unfold Shaping.endAction
  split
  · exact .refl x
  · exact ⟨StageKeeps.raised _ _, rfl, rfl, rfl, rfl⟩

theorem Shaping.endBlock_keeps (x : Shaping) (lead : Group) (ending : BlockEntry) : x.Keeps (x.endBlock lead ending) := by
  unfold Shaping.endBlock State.turnBlock
  refine Shaping.Keeps.trans (Shaping.Keeps.ofState ?_) (Shaping.endAction_keeps _ _ _)
  exact ((StageKeeps.onAllCycles _ _).trans (StageKeeps.onCycles _ _ _)).trans
    (StageKeeps.foldl (fun s g => StageKeeps.onPages s g _) _ _)

theorem Shaping.tellBoundary_keeps (x : Shaping) (lead : Group) : x.Keeps (x.tellBoundary lead) :=
  .ofState ((StageKeeps.capture _ _ _).trans (StageKeeps.tellMarkers _ _))

theorem Shaping.boundary_keeps (x : Shaping) (lead : Group) (ending : BlockEntry) : x.Keeps (x.boundary lead ending) :=
  (x.endBlock_keeps lead ending).trans (Shaping.tellBoundary_keeps _ lead)

/-- No event at a place changes nothing. -/
@[simp] theorem Shaping.meet_nil (x : Shaping) : x.meet [] = x := rfl

theorem Shaping.sequence_keeps (x : Shaping) (g : Group) : x.Keeps (x.sequence g []) := by
  unfold Shaping.sequence
  split
  · dsimp only
    split
    · exact x.countCycle_keeps g
    · exact (x.countCycle_keeps g).trans (Shaping.boundary_keeps _ _ _)
  · exact .refl x

theorem Shaping.swapPage_keeps (x : Shaping) (g : Group) : x.Keeps (x.swapPage g) := by
  unfold Shaping.swapPage State.swap
  split
  · refine .ofState ?_
    split
    · exact StageKeeps.refl _
    · exact StageKeeps.onPages _ _ _
  · exact .refl x

theorem Shaping.tellTurning_keeps (x : Shaping) (g : Group) : x.Keeps (x.tellTurning g) := by
  unfold Shaping.tellTurning
  split
  · exact .ofState (StageKeeps.tellMarkers _ _)
  · exact .refl x

theorem Shaping.stage2_keeps (x : Shaping) (g : Group) : x.Keeps (x.stage2 g []) :=
  ((x.sequence_keeps g).trans (Shaping.swapPage_keeps _ g)).trans (Shaping.tellTurning_keeps _ g)

theorem Shaping.sumCheck_keeps (x : Shaping) (g : Group) (cands : List Output) : x.Keeps (x.sumCheck g cands).1 := by
  unfold Shaping.sumCheck
  dsimp only
  split
  · exact .ofState (StageKeeps.onShape _ _ _)
  · split
    · exact .ofState (StageKeeps.onShape _ _ _)
    · refine ⟨StageKeeps.trans ?_ (StageKeeps.onShape _ _ _), rfl, rfl, rfl, rfl⟩
      split
      · exact StageKeeps.raised _ _
      · exact StageKeeps.refl _

theorem StageKeeps.setHolds (s : State) (g : Group) : StageKeeps s (s.setHolds g) := by
  unfold State.setHolds
  split
  · exact StageKeeps.refl s
  · exact StageKeeps.onOutputs _ _

theorem Shaping.stage3to6_keeps (x : Shaping) (g : Group) : x.Keeps (x.stage3to6 g).1 := by
  unfold Shaping.stage3to6
  split
  · exact .ofState (StageKeeps.onShape _ _ _)
  · exact x.sumCheck_keeps g _
  · exact x.sumCheck_keeps g _
  · exact Shaping.Keeps.trans (.ofState (StageKeeps.setHolds _ g)) (Shaping.sumCheck_keeps _ g _)
  · exact .ofState (StageKeeps.onShape _ _ _)
  · exact .ofState (StageKeeps.onShape _ _ _)

theorem Shaping.writeSlot_keeps (x : Shaping) (o : Output) : x.Keeps (x.writeSlot o) := by
  unfold Shaping.writeSlot
  split
  · exact .refl x
  · exact ⟨StageKeeps.refl _, rfl, rfl, rfl, putSlot_length _ _ _⟩

theorem Shaping.writeSlot_state (x : Shaping) (o : Output) : (x.writeSlot o).state = x.state := by
  unfold Shaping.writeSlot
  split <;> rfl

theorem Shaping.keep_keeps (x : Shaping) (o : Output) : x.Keeps (x.keep o) :=
  ⟨StageKeeps.onOutput _ _ _, (x.writeSlot_keeps o).received, (x.writeSlot_keeps o).number, (x.writeSlot_keeps o).cycling,
    (x.writeSlot_keeps o).length⟩

theorem Shaping.writeNone_keeps (x : Shaping) (a : Actuator) : x.Keeps (x.writeNone a) :=
  ⟨StageKeeps.onOutput _ _ _, (x.writeSlot_keeps _).received, (x.writeSlot_keeps _).number, (x.writeSlot_keeps _).cycling,
    (x.writeSlot_keeps _).length⟩

theorem Shaping.markShaped_keeps (x : Shaping) (g : Group) : x.Keeps (x.markShaped g) := .ofState (StageKeeps.onShape _ _ _)

theorem Shaping.stage7_keeps (x : Shaping) (g : Group) (outs : List Output) : x.Keeps (x.stage7 g outs) := by
  unfold Shaping.stage7
  split
  · exact (Shaping.Keeps.foldl Shaping.writeNone_keeps _ x).trans (Shaping.markShaped_keeps _ g)
  · exact (Shaping.Keeps.foldl Shaping.keep_keeps _ x).trans (Shaping.markShaped_keeps _ g)

theorem StageKeeps.engageReport (s : State) (g : Group) : StageKeeps s (s.engageReport g) := by
  unfold State.engageReport
  split
  · refine StageKeeps.onLock s g ?_ ?_ <;> split <;> rfl
  · exact StageKeeps.refl s

theorem StageKeeps.unloadCompletion (s : State) (g : Group) : StageKeeps s (s.unloadCompletion g) := by
  unfold State.unloadCompletion
  split
  · next h =>
    rw [State.moveGroup_of_ne_off _ _ (by decide)]
    refine StageKeeps.onLock s g rfl ⟨fun e => (by cases e), fun e => ?_⟩
    have h' : (s.lock g).state = .unload := h
    rw [h'] at e
    cases e
  · exact StageKeeps.refl s

theorem StageKeeps.engageEnd (s : State) (g : Group) : StageKeeps s (s.engageEnd g) := by
  unfold State.engageEnd
  split
  · next h =>
    rw [State.moveGroup_of_ne_off _ _ (by decide)]
    refine StageKeeps.onLock s g rfl ⟨fun e => (by cases e), fun e => ?_⟩
    rw [e] at h
    simp at h
  · exact StageKeeps.refl s

theorem Shaping.stage8_keeps (x : Shaping) (g : Group) : x.Keeps (x.stage8 g) := by
  unfold Shaping.stage8
  split
  · split
    · exact .ofState (StageKeeps.unloadCompletion _ g)
    · exact .refl x
  · exact .ofState (StageKeeps.engageReport _ g)
  all_goals exact .refl x

/-- With no event during a sweep, a group goes through stages 1 to 8 one after the other. -/
theorem Shaping.dealGroup_nil (x : Shaping) (g : Group) : x.dealGroup g [] =
    (((((x.stage1 g).stage2 g []).stage3to6 g).1.stage7 g (((x.stage1 g).stage2 g []).stage3to6 g).2).stage8 g).recordCycling g := by
  simp only [Shaping.dealGroup, List.getD_nil, Shaping.meet_nil]

/-- A group dealt with through stages 1 to 8 keeps what every stage keeps. -/
theorem Shaping.dealGroup_keeps (x : Shaping) (g : Group) : x.Keeps (x.dealGroup g []) := by
  rw [x.dealGroup_nil g]
  exact ((((x.stage1_keeps g).trans (Shaping.stage2_keeps _ g)).trans (Shaping.stage3to6_keeps _ g)).trans
    (Shaping.stage7_keeps _ g _)).trans ((Shaping.stage8_keeps _ g).trans (.ofState (StageKeeps.onShape _ _ _)))

/-- A whole sweep shaped with no event during its shaping keeps what every stage keeps. -/
theorem Shaping.dealAll_keeps (x : Shaping) : x.Keeps (x.dealAll []) := by
  have h : ∀ (gs : List Group) (y : Shaping), y.Keeps (Shaping.dealGroups gs [] y) := by
    intro gs
    induction gs with
    | nil => intro y; exact .refl y
    | cons g rest ih => intro y; exact (y.dealGroup_keeps g).trans (ih _)
  exact (h _ x).trans (Shaping.Keeps.foldl Shaping.writeNone_keeps _ _)

end Sys2Proof.Machine
end

