-- ==== Sys2Proof/Laws/ReturnLane.lean ====
section
/-! SUPPORT. What the return lane's blocks, the sweep watch's expiry and the end of an engage interval leave as they found it:
what any event that falls while a sweep is being shaped leaves (R28). -/

namespace Sys2Proof.Machine

open Sys2Proof

/-- What none of these events changes: the queue, the unit, the outbound lane, the map, the shaper, the pages, the shape tables,
the counts, each actuator's group and floor, each group's record, and which groups are OFF. -/
structure MidKeeps (s t : State) : Prop where
  pending : t.pending = s.pending
  unit : t.unit = s.unit
  outLane : t.outLane = s.outLane
  slotMap : t.slotMap = s.slotMap
  shaper : t.shaper = s.shaper
  pages : t.pages = s.pages
  shapes : t.shapes = s.shapes
  cycles : t.cycles = s.cycles
  group : ∀ a : Actuator, (t.actuator a).group = (s.actuator a).group
  floor : ∀ a : Actuator, (t.actuator a).floor = (s.actuator a).floor
  record : ∀ g : Group, (t.lock g).record = (s.lock g).record
  off : ∀ g : Group, t.groupState g = .off ↔ s.groupState g = .off

theorem MidKeeps.refl (s : State) : MidKeeps s s := by
  constructor <;> first | rfl | (intro x; rfl)

theorem MidKeeps.trans {s t u : State} (h : MidKeeps s t) (k : MidKeeps t u) : MidKeeps s u where
  pending := k.pending.trans h.pending
  unit := k.unit.trans h.unit
  outLane := k.outLane.trans h.outLane
  slotMap := k.slotMap.trans h.slotMap
  shaper := k.shaper.trans h.shaper
  pages := k.pages.trans h.pages
  shapes := k.shapes.trans h.shapes
  cycles := k.cycles.trans h.cycles
  group a := (k.group a).trans (h.group a)
  floor a := (k.floor a).trans (h.floor a)
  record g := (k.record g).trans (h.record g)
  off g := (k.off g).trans (h.off g)

theorem MidKeeps.foldl {α : Type} {f : State → α → State} (h : ∀ (s : State) (a : α), MidKeeps s (f s a)) (l : List α)
    (s : State) : MidKeeps s (l.foldl f s) := by
  induction l generalizing s with
  | nil => exact MidKeeps.refl s
  | cons a rest ih => exact (h s a).trans (ih (f s a))

theorem MidKeeps.raised (s : State) (r : Raise) : MidKeeps s (s.raised r) where
  pending := by simp
  unit := by simp
  outLane := by simp
  slotMap := by simp
  shaper := by simp
  pages := by simp
  shapes := by simp
  cycles := by simp
  group a := by simp
  floor a := by simp
  record := (StageKeeps.raised s r).record
  off := (StageKeeps.raised s r).off

theorem MidKeeps.raisedAll (s : State) (rs : List Raise) : MidKeeps s (s.raisedAll rs) :=
  MidKeeps.foldl (fun s r => MidKeeps.raised s r) rs s

theorem MidKeeps.onWatch (s : State) (f : SweepWatch → SweepWatch) : MidKeeps s (s.onWatch f) := by
  constructor <;> first | rfl | (intro x; rfl)

/-- A change of an actuator's seed or arming. -/
theorem MidKeeps.onActuator (s : State) (a : Actuator) {f : ActuatorLock → ActuatorLock}
    (hg : ∀ x, (f x).group = x.group) (hf : ∀ x, (f x).floor = x.floor) : MidKeeps s (s.onActuator a f) := by
  constructor <;> try first | rfl | (intro g; rfl)
  all_goals
    intro b
    rw [State.actuator_onActuator]
    split <;> simp [hg, hf]

/-- A FEEDBACK slot changes neither an actuator's group nor its floor nor its level. -/
theorem ActuatorLock.noteFeedback_keeps (x : ActuatorLock) (sl : Slot) :
    (x.noteFeedback sl).group = x.group ∧ (x.noteFeedback sl).floor = x.floor ∧ (x.noteFeedback sl).level = x.level := by
  unfold ActuatorLock.noteFeedback
  split <;> exact ⟨rfl, rfl, rfl⟩

theorem MidKeeps.feedbackNoted (s : State) (rd : Reading) : MidKeeps s (s.feedbackNoted rd) := by
  have h : ∀ a, ((s.feedbackNoted rd).actuator a).group = (s.actuator a).group ∧
      ((s.feedbackNoted rd).actuator a).floor = (s.actuator a).floor := by
    intro a
    simp only [State.actuator, State.feedbackNoted, Vector.entry_alterAll]
    split
    · exact ⟨rfl, rfl⟩
    · exact ⟨(ActuatorLock.noteFeedback_keeps _ _).1, (ActuatorLock.noteFeedback_keeps _ _).2.1⟩
  refine ⟨rfl, rfl, rfl, rfl, rfl, rfl, rfl, rfl, fun a => (h a).1, fun a => (h a).2, fun g => rfl, fun g => Iff.rfl⟩

theorem MidKeeps.strainJudged (s : State) (rd : Reading) : MidKeeps s (s.strainJudged rd) := by
  constructor <;> first | rfl | (intro x; rfl)

theorem MidKeeps.crackEvaluated (s : State) (rd : Reading) : MidKeeps s (s.crackEvaluated rd) := by
  constructor <;> first | rfl | (intro x; rfl)

theorem MidKeeps.feedbackIntake (s : State) (map : List Binding) (sw : Sweep) : MidKeeps s (s.feedbackIntake map sw) :=
  (MidKeeps.feedbackNoted s _).trans (MidKeeps.raisedAll _ _)

theorem MidKeeps.strainBlock (s : State) (map : List Binding) (sw : Sweep) : MidKeeps s (s.strainBlock map sw).1 :=
  (MidKeeps.strainJudged s _).trans (MidKeeps.raisedAll _ _)

theorem MidKeeps.crackWatch (s : State) (map : List Binding) (sw : Sweep) : MidKeeps s (s.crackWatch map sw) :=
  (MidKeeps.crackEvaluated s _).trans (MidKeeps.raisedAll _ _)

theorem MidKeeps.inReturn (s : State) (h : Hand) : MidKeeps s (s.inReturn h) := by
  constructor <;> first | rfl | (intro x; rfl)

theorem MidKeeps.startPort_ret (s : State) : MidKeeps s (s.startPort .ret) := by
  rcases s.startPort_ret_cases with ⟨-, e⟩ | ⟨b, -, -, e⟩ | ⟨-, -, -, e⟩ <;> rw [e]
  · exact MidKeeps.refl s
  all_goals constructor <;> first | rfl | (intro x; rfl)

theorem MidKeeps.beginBlock (s : State) (sw : Sweep) (map : List Binding) (b : ReturnBlock) :
    MidKeeps s (s.beginBlock sw map b) := by
  cases b
  · exact (MidKeeps.feedbackNoted s _).trans (MidKeeps.inReturn _ _)
  · exact (MidKeeps.strainJudged s _).trans (MidKeeps.inReturn _ _)
  · exact (MidKeeps.crackEvaluated s _).trans (MidKeeps.inReturn _ _)
  · exact (MidKeeps.inReturn s _).trans (MidKeeps.startPort_ret _)

theorem MidKeeps.handRaises (s : State) (n : Nat) : MidKeeps s (s.handRaises n) := by
  unfold State.handRaises
  split
  · exact (MidKeeps.raisedAll _ _).trans (MidKeeps.inReturn _ _)
  · exact MidKeeps.refl s

theorem MidKeeps.finishBlock (s : State) : MidKeeps s s.finishBlock := MidKeeps.handRaises s _

/-- What a service item finds: the raises still owed handed over, and the sweep in hand with none owed. -/
theorem State.finishBlock_processing {s : State} {sw : Sweep} {map : List Binding} {next : ReturnBlock} {owed : List Raise}
    (h : s.retLane.hand = some (.processing sw map next owed)) :
    s.finishBlock = (s.raisedAll owed).inReturn (.processing sw map next []) := by
  simp [State.finishBlock, State.handRaises, State.owed, h]

/-- With no sweep in processing nothing is owed. -/
theorem State.finishBlock_of_not_processing {s : State}
    (h : ∀ sw map next owed, s.retLane.hand ≠ some (.processing sw map next owed)) : s.finishBlock = s := by
  unfold State.finishBlock State.handRaises
  split
  · rename_i e
    exact absurd e (h _ _ _ _)
  · rfl

@[simp] theorem State.finishBlock_pending (s : State) : s.finishBlock.pending = s.pending := (MidKeeps.finishBlock s).pending
@[simp] theorem State.finishBlock_unit (s : State) : s.finishBlock.unit = s.unit := (MidKeeps.finishBlock s).unit
@[simp] theorem State.finishBlock_outLane (s : State) : s.finishBlock.outLane = s.outLane := (MidKeeps.finishBlock s).outLane
@[simp] theorem State.finishBlock_slotMap (s : State) : s.finishBlock.slotMap = s.slotMap := (MidKeeps.finishBlock s).slotMap
@[simp] theorem State.finishBlock_shaper (s : State) : s.finishBlock.shaper = s.shaper := (MidKeeps.finishBlock s).shaper
@[simp] theorem State.finishBlock_pages (s : State) : s.finishBlock.pages = s.pages := (MidKeeps.finishBlock s).pages
@[simp] theorem State.finishBlock_shapes (s : State) : s.finishBlock.shapes = s.shapes := (MidKeeps.finishBlock s).shapes
@[simp] theorem State.finishBlock_cycles (s : State) : s.finishBlock.cycles = s.cycles := (MidKeeps.finishBlock s).cycles
@[simp] theorem State.finishBlock_service (s : State) : s.finishBlock.service = s.service := by
  unfold State.finishBlock State.handRaises
  split <;> simp [State.inReturn]
@[simp] theorem State.finishBlock_watch (s : State) : s.finishBlock.watch = s.watch := by
  unfold State.finishBlock State.handRaises
  split <;> simp [State.inReturn]

theorem MidKeeps.returnStep (s : State) (through : ReturnBlock) : MidKeeps s (s.returnStep through) := by
  unfold State.returnStep
  split
  · split
    · exact (MidKeeps.finishBlock s).trans (MidKeeps.beginBlock _ _ _ _)
    · exact MidKeeps.refl s
  · exact MidKeeps.refl s

theorem MidKeeps.handOver (s : State) (through : ReturnReach) : MidKeeps s (s.handOver through) := by
  unfold State.handOver
  split
  · split
    · exact MidKeeps.handRaises s _
    · exact MidKeeps.refl s
  · exact MidKeeps.refl s

theorem MidKeeps.returnSweep (s : State) (through : ReturnReach) : MidKeeps s (s.returnSweep through) := by
  have h : MidKeeps s s.takeReturn := by
    unfold State.takeReturn
    split
    · exact MidKeeps.refl s
    · split
      · constructor <;> first | rfl | (intro x; rfl)
      · exact MidKeeps.refl s
  exact h.trans ((MidKeeps.returnStep _ _).trans ((MidKeeps.returnStep _ _).trans ((MidKeeps.returnStep _ _).trans
    ((MidKeeps.returnStep _ _).trans (MidKeeps.handOver _ _)))))

theorem MidKeeps.watchExpiry (s : State) : MidKeeps s s.watchExpiry := by
  unfold State.watchExpiry
  split
  · dsimp only
    split
    · exact ((MidKeeps.onWatch _ _).trans (MidKeeps.raised _ _)).trans (MidKeeps.onWatch _ _)
    · exact (MidKeeps.onWatch _ _).trans (MidKeeps.raised _ _)
  · exact MidKeeps.refl s

theorem MidKeeps.engageEnd (s : State) (g : Group) : MidKeeps s (s.engageEnd g) := by
  have h := StageKeeps.engageEnd s g
  have e : s.engageEnd g = s ∨ s.engageEnd g =
      s.onLock g (fun l => { l with state := .run, engageCount := 0, reportDue := false }) := by
    unfold State.engageEnd
    split
    · exact .inr (State.moveGroup_of_ne_off _ _ (by decide))
    · exact .inl rfl
  refine ⟨h.pending, h.unit, h.outLane, h.slotMap, ?_, ?_, h.shapes, ?_, fun a => ?_, fun a => ?_, h.record, h.off⟩ <;>
    rcases e with e | e <;> rw [e] <;> rfl

/-- An event that falls while a sweep is being shaped. -/
theorem MidKeeps.meet (s : State) (e : MidEvent) : MidKeeps s (s.meet e) := by
  cases e with
  | returnWork through => exact MidKeeps.returnSweep s through
  | watchExpiry => exact MidKeeps.watchExpiry s
  | engageEnd g => exact MidKeeps.engageEnd s g

end Sys2Proof.Machine
end

