-- ==== Sys2Proof/WellFormed.lean ====
section
/-! DEFINITION. Which commands are well formed. The operand types already bound groups, lines and strap numbers. What is
left is R3, that an item declares at most 12 argument words, and R26, that a sweep is shaped for at most six groups. -/

namespace Sys2Proof

/-- R3: an item has at most 12 argument words. -/
def argsOk (args : List Word) : Bool := args.length ≤ Config.argMax

/-- R26: the shaping of a sweep has 31 places for events: five for each of at most six groups, and one after the last. -/
def placesOk (during : List (List MidEvent)) : Bool := during.length ≤ 31

/-- The well-formed commands. -/
def Instr.wellFormed : Instr → Bool
  | .outboundSweep during => placesOk during
  | .frameArrival _ _ | .engageIntervalEnd _ | .returnSweep _ | .framePassThrough _
  | .sweepWatchExpiry | .standInExpiry | .markerPulseExpiry _ | .frameSent _ | .replySent | .resetAssert
  | .resetRelease | .powerOn | .startupComplete _ | .serviceFrame | .suppliesSteady => true
  | .page _ args => argsOk args
  | .quiet _ args => argsOk args
  | .map _ args => argsOk args
  | .actuator _ args => argsOk args
  | .group _ args => argsOk args
  | .pageGroup _ args => argsOk args
  | .pageAct _ args => argsOk args
  | .shape _ args => argsOk args
  | .cal _ args => argsOk args
  | .limit _ args => argsOk args
  | .crack _ args => argsOk args
  | .coinc _ args => argsOk args
  | .block _ args => argsOk args
  | .captureCfg _ args => argsOk args
  | .marker _ args => argsOk args
  | .watch _ args => argsOk args
  | .floor _ args => argsOk args
  | .commit _ args => argsOk args
  | .release _ args => argsOk args
  | .hold _ args => argsOk args
  | .unload _ args => argsOk args
  | .disengage _ args => argsOk args
  | .ack _ args => argsOk args
  | .resetSchedule _ args => argsOk args
  | .capture _ args => argsOk args
  | .clearFlags _ args => argsOk args
  | .restart _ args => argsOk args
  | .read _ args => argsOk args
  | .readPending _ args => argsOk args
  | .readCapture _ args => argsOk args
  | .readResetCause _ args => argsOk args

end Sys2Proof
end

