-- ==== Sys2Proof/Tests/Slice0.lean ====
section
/-! SUPPORT. The model's own tests: ill-formed commands refused, the spec's worked figures, and a state that meets the
hypotheses of each statement that has any. -/

namespace Sys2Proof.Tests

open Sys2Proof Sys2Proof.Machine

-- One theorem after the other: many kernel evaluations side by side each hold a thread and its stack.
set_option Elab.async false

/-! ### WellFormed -/

theorem test_thirteen_words_refused : (Instr.map 1 (List.replicate 13 0)).wellFormed = false := by decide
theorem test_twelve_words_accepted : (Instr.coinc 1 (List.replicate 12 0)).wellFormed = true := by decide
theorem test_too_many_places_refused : (Instr.outboundSweep (List.replicate 32 [])).wellFormed = false := by decide

/-! ### Worked figures of the load shaper (02 section 3.9) -/

/-- Figure 3-5: the two entries of table 0 that the case names. -/
def cosineTable : Vector Int 256 := ((fill 256 0).alter 48 (fun _ => -12539)).alter 49 (fun _ => -11793)

/-- The page entry of A5 in 3.9. -/
def entryA5 : PageEntry :=
  { mode := .cyclic, mean := 60000, amplitude := 45000, offset := 0, shape := 0, fmin := 5000, fmax := 120000, slew := 800 }

/-- Figure 3-5. -/
theorem test_waveform : waveform cosineTable entryA5 12345 = 43008 := by decide +kernel
/-- R38 by hand, halfway from entry 255 back to entry 0: the phase 65,400 and the offset 8, entries 32,767 and 0, so that the
shape value is 16,383 and W is 60,000 + 22,499; and at the phase 65,528 the sum wraps to 0. -/
theorem test_waveform_wraps :
    waveform ((fill 256 0).alter 255 (fun _ => 32767)) { entryA5 with offset := 8 } 65400 = 82499 ∧
    waveform ((fill 256 0).alter 255 (fun _ => 32767)) { entryA5 with offset := 8 } 65528 = 60000 := by decide +kernel
/-- Figure 3-6, both rows. -/
theorem test_slew_free : throughEnvelope entryA5 42600 43008 false = (43008, .good) := by decide
/-- Figure 3-6. -/
theorem test_slew_limited : throughEnvelope entryA5 41900 43008 false = (42700, .limited) := by decide
/-- Figure 3-7, sweeps 1 and 9. -/
theorem test_unload_step : unloadOutput 5000 43008 2000 = (38008, .limited) := by decide
/-- Figure 3-7. -/
theorem test_unload_end : unloadOutput 5000 3008 2000 = (2000, .good) := by decide
/-- Figure 3-9, sweeps 2 and 4. -/
theorem test_peak : crossingOf 16384 16384 = { valley := false, peak := true } := by decide
/-- Figure 3-9. -/
theorem test_valley : crossingOf 49152 16384 = { valley := true, peak := false } ∧ advancePhase 49152 16384 = 0 := by decide

/-! ### Worked figures of the strain block (05 sections 6.4 and 6.7) -/

/-- Figure 6-3, channels 140 and 143, and the true half below zero. -/
theorem test_conditioning :
    conditionRaw { zero := -2144, gain := 3277, comp := some 141 } 12034 = 709 ∧
    conditionRaw { zero := 0, gain := 32768, comp := none } 1 = 1 ∧
    conditionRaw { zero := 0, gain := 32768, comp := none } (-1) = -1 := by decide

/-- The limit record of channel 140 in 6.7. -/
def limit140 : LimitRecord :=
  { warnLow := -600, warnHigh := 600, stopLow := -900, stopHigh := 900, hysteresis := 50, debounce := 3, level := 4
    action := .hold, mask := 2, capture := true }

/-- A channel of 6.7 between two sweeps. -/
def channel140 (watch : Band) (count : Nat) (run : Option (Direction × Band)) (warns : Nat) (armed : Bool) : StrainChannel :=
  { StrainChannel.atReset with
    limit := some limit140, watch := watch, debounce := count, run := run, warnCount := warns, armed := armed }

/-- Figure 6-5, sweep 7. -/
theorem test_run_ends_in_warn :
    (channel140 .normal 2 (some (.moreSevere, .warn)) 0 true).judgeValue limit140 910 = channel140 .warn 0 none 1 true := by
  decide
/-- Figure 6-5, sweep 10: the channel is raised. -/
theorem test_run_ends_in_stop :
    ((channel140 .warn 2 (some (.moreSevere, .stop)) 1 true).afterSweep (some (925, .good))).2 = true ∧
    ((channel140 .warn 2 (some (.moreSevere, .stop)) 1 true).afterSweep (some (925, .good))).1.watch = .stop := by decide
/-- Figure 6-6, sweep 14: the channel leaves STOP for WARN and is armed again. -/
theorem test_leaves_stop :
    (channel140 .stop 2 (some (.lessSevere, .warn)) 1 false).judgeValue limit140 480 = channel140 .warn 0 none 1 true := by
  decide

/-! ### Worked figures of the crack watch (06 section 7.7) -/

/-- The record of channel 5 in 7.7. -/
def wire5 : CrackRecord :=
  { kind := .wire, debounce := 3, decay := 1, threshold := 1, level := 6, action := .unload, mask := 3, capture := true }
/-- The record of channel 40 in 7.7. -/
def ae40 : CrackRecord :=
  { kind := .ae, debounce := 1, decay := 3, threshold := 400, level := 5, action := .hold, mask := 2, capture := false }

/-- Figure 7-4, sweep 7. -/
theorem test_third_broken_raises :
    ({ CrackChannel.atReset with record := some wire5, debounce := 2 } : CrackChannel).wireStep wire5 .broken =
      { channel := { CrackChannel.atReset with record := some wire5, condition := true, armed := false }
        raise := some .unload } := by decide
/-- Figure 7-4, sweep 11. -/
theorem test_intact_ends_fault :
    ({ CrackChannel.atReset with record := some wire5, condition := true, sensorFault := true, armed := false } :
        CrackChannel).wireStep wire5 .intact =
      { channel := { CrackChannel.atReset with record := some wire5, condition := true, debounce := 1, armed := false }
        raise := none } := by decide
/-- Figure 7-5, sweep 1. -/
theorem test_burst :
    ({ CrackChannel.atReset with record := some ae40, accumulator := 300 } : CrackChannel).aeStep ae40 150 =
      { channel := { CrackChannel.atReset with record := some ae40, accumulator := 413, condition := true, armed := false }
        raise := some .hold } := by decide
/-- Figure 7-5, sweep 7. -/
theorem test_burst_clears :
    ({ CrackChannel.atReset with record := some ae40, accumulator := 214, condition := true, armed := false } :
        CrackChannel).aeStep ae40 0 =
      { channel := { CrackChannel.atReset with record := some ae40, accumulator := 188 }, raise := none } := by decide

/-! ### Frames (01 section 2.8) -/

/-- The check value of Ethernet's CRC-32, the CRC of the nine bytes 31 to 39 (log 5). -/
theorem test_crc : crc32 [0x31, 0x32, 0x33, 0x34, 0x35, 0x36, 0x37, 0x38, 0x39] = 0xCBF43926 := by decide +kernel

/-- A controller sweep of number 5. -/
def sweep5 (slots : List Slot) : List Byte := sweepBytes { origin := 0, governor := 0, number := 5, slots := slots }

/-- A slot of number 1 that carries a setpoint of 300 as a controller sends it. -/
def setpointSlot : Slot := { number := 1, kind := 1, quality := 1, value := 300 }

theorem test_sweep_good : frameGood (sweep5 [setpointSlot]) = true := by decide +kernel
theorem test_short_frame_bad : frameGood [0xA1, 1, 0, 0, 0] = false := by decide +kernel
/-- R2: a frame that its last byte makes bad, one that declares a byte less than it has, and one too long. -/
theorem test_common_checks :
    frameGood ((sweep5 [setpointSlot]).dropLast ++ [0]) = false ∧ frameGood (sealFrame [0xA9, 8, 0, 0, 0, 0, 0, 0, 0]) = false ∧
    frameGood (sealFrame [0xA9, 9, 0, 0, 0, 0, 0, 0, 0]) = true ∧ frameGood (List.replicate 4097 0) = false := by
  decide +kernel
/-- R3: sweeps of origin 2 and of one slot too few; service frames of no item, of an item of thirteen words, and of a byte behind
the last item; replies of a result without its word, and of none. -/
theorem test_kind_checks :
    frameGood (sealFrame [0xA1, 9, 0, 2, 0, 5, 0, 0, 0]) = false ∧ frameGood (sealFrame [0xA1, 9, 0, 0, 0, 5, 0, 1, 0]) = false ∧
    frameGood (sealFrame [0xA2, 7, 0, 17, 5, 0, 0]) = false ∧
    frameGood (sealFrame ([0xA2, 63, 0, 17, 5, 0, 1, 0x28, 13, 0, 0] ++ List.replicate 52 0)) = false ∧
    frameGood (sealFrame [0xA2, 12, 0, 17, 5, 0, 1, 0x28, 0, 0, 0, 0]) = false ∧
    frameGood (sealFrame [0xA3, 12, 0, 17, 5, 0, 1, 0x28, 0, 0, 0, 1]) = false ∧
    frameGood (sealFrame [0xA3, 7, 0, 17, 5, 0, 0]) = true := by decide +kernel

/-! ### States for the tests -/

/-- The part in normal processing with node address 17 and actuator 1's SETPOINT bound to slot 1. -/
def live : State :=
  { State.reset with
    unit := { State.reset.unit with startup := false, nodeAddress := 17 }
    outLane := { Lane.atReset with bypass := false }
    retLane := { Lane.atReset with bypass := false }
    slotMap := [{ slot := 1, role := .setpoint 0 }] }

/-- `live` with actuator 1 in group G1, its entry in page 0, G1 in the state `st`, and an output kept. -/
def governed (st : GroupState) : State :=
  (((live.onActuator 0 (fun x => { x with group := some 0, seed := some 300 })).onLock 0 (fun l => { l with state := st })).onOutput
    0 (fun o => { o with kept := some 300 })).onPages 0 (fun y =>
      { y with pages := y.pages.alter 0 (fun p => { p with entries := p.entries.alter 0 (fun _ => some entryA5) }) })

/-- A checked frame that waits. -/
def waitingFrame (bytes : List Byte) : Waiting := { bytes := bytes, bypassed := false, map := [] }
/-- A frame that arrived in bypass and waits. -/
def bypassedFrame (bytes : List Byte) : Waiting := { bytes := bytes, bypassed := true, map := [] }
/-- A state with these frames waiting and this frame in hand on a lane. -/
def laneWith (s : State) (l : LaneId) (ws : List Waiting) (h : Option Hand) : State :=
  s.onLane l (fun x => { x with waiting := ws, hand := h })

/-- A service frame to node 17 with tag 5 and one item, CLEAR_FLAGS. -/
def serviceFrame17 : List Byte := sealFrame [0xA2, 11, 0, 17, 5, 0, 1, 0x28, 0, 0, 0]

/-! ### The hypotheses of the statements met -/

theorem witness_StepTakesFrontCommand :
    ({ live with pending := [.clearFlags 0 []] } : State).pending = Instr.clearFlags 0 [] :: [] ∧
    State.reset.pending = [] := ⟨rfl, rfl⟩

/-- G1 in RUN with a HOLD command waiting, a record in the capture log, an entry of another group, a lead, a compensation
channel and a run on strain channel 3. -/
def busy : State :=
  { (((((governed .run).capture .manual 5).raised
      { source := .groupSum 3, level := 5, action := .unload, mask := 8, sweep := 5, capture := true, handed := .sum }).onLock 2
        (fun l => { l with record := { l.record with lead := some 0 } })).onStrain 3 (fun ch =>
          { ch with
            cal := some { zero := 0, gain := 1, comp := some 4 }, run := some (.moreSevere, .warn), debounce := 1
            limit := some limit140 })) with
    pending := [.hold 1 []] }

theorem busy_steps : ∃ t, step busy = .next t := ⟨_, rfl⟩
theorem witness_StepKeepsMapOrdered : mapWf busy.slotMap := by decide +kernel
theorem witness_StepKeepsLatches : busy.latchSafe := by decide +kernel
theorem witness_StepKeepsBounds : busy.bounded := by decide +kernel
theorem witness_StepKeepsAlarmTable : busy.alarm.wf := by decide +kernel
theorem witness_StepKeepsEngageCounts : busy.engageSafe := by decide +kernel
theorem witness_StepKeepsActivePagesComplete : busy.pagesSafe := by decide +kernel

theorem witness_StepKeepsCaptureLog : busy.captures.Wf where
  room := by decide +kernel
  rising := by
    intro i r q h1 h2
    match i with
    | 0 => revert h1 h2; exact fun h1 h2 => by cases h1; cases h2; decide +kernel
    | i + 1 => cases h2
  following := by intro r h; cases h; decide +kernel
  watermark := by decide
  watched := by decide
theorem witness_StepKeepsChainsShort : busy.NoChains where
  leads := by decide +kernel
  compensations := by
    intro c d r h1 h2
    by_cases hc : c = 3
    · subst hc; cases h1; cases h2
      exact ⟨by decide, fun q h => by cases h⟩
    · have : busy.strain.entry c = StrainChannel.atReset :=
        (Vector.entry_alter_of_ne _ _ hc).trans (Vector.entry_fill _ c)
      rw [this] at h1; cases h1
theorem witness_StepKeepsStrainRuns : ∀ c : Fin 256, (busy.strain.entry c).runWf := by
  intro c
  by_cases hc : c = 3
  · subst hc; show (0 : Nat) < 1; decide
  · have : busy.strain.entry c = StrainChannel.atReset :=
      (Vector.entry_alter_of_ne _ _ hc).trans (Vector.entry_fill _ c)
    rw [this]; exact trivial
theorem witness_StepKeepsOutputsWithGroups : busy.outputsFollow := by
  intro a
  fin_cases a <;> first | exact ⟨rfl, rfl⟩ | rfl

theorem witness_SweepBytesReadBack : (List.replicate 384 setpointSlot).length ≤ 384 :=
  le_of_eq List.length_replicate
/-- Figure 2-8 by hand: two items, the second with one word; and as many items and words as a frame may have. -/
theorem witness_SweepBytesReadBack_items :
    serviceItems (sealFrame [0xA2, 19, 0, 17, 5, 0, 2, 0x28, 0, 0, 0, 0x02, 1, 3, 1, 1, 2, 0, 0]) =
      [{ code := 0x28, index := 0, args := [] }, { code := 0x02, index := 259, args := [513] }] ∧
    (List.replicate 64 ({ code := 0, index := 0, args := List.replicate 12 0 } : Item)).length ≤ 64 ∧
    ({ code := 0, index := 0, args := List.replicate 12 0 } : Item).args.length ≤ 12 := by decide +kernel
theorem witness_BuiltFramesPassChecks : (∃ sw : Sweep, sw.slots.length ≤ 384 ∧ sw.origin = 1) ∧
    ∃ rs : List ItemResult, rs.length ≤ 64 ∧ rs ≠ [] ∧ ∀ r ∈ rs, r.words.length ≤ 12 :=
  ⟨⟨{ origin := 1, governor := 0, number := 5, slots := [setpointSlot] }, by decide, rfl⟩,
    ⟨[{ code := 0x31, result := .ok, index := 0, words := List.replicate 12 0 }], by decide, by decide, by decide⟩⟩

/-- Each branch of the statement: a bad frame, room, no room. -/
theorem witness_CheckedArrival :
    (live.lane .outbound).bypass = false ∧ frameGood [0xA1, 1, 0, 0, 0] = false ∧ frameGood (sweep5 [setpointSlot]) = true ∧
    (live.lane .outbound).waiting.length < 4 ∧
    ¬ ((laneWith live .outbound (List.replicate 4 (waitingFrame [])) none).lane .outbound).waiting.length < 4 := by
  decide +kernel
theorem witness_BypassArrival :
    (∀ l, (State.reset.lane l).bypass = true ∧ (State.reset.lane l).waiting = [] ∧ (State.reset.lane l).hand = none) ∧
    State.reset.service.replySending = false ∧
    ((laneWith State.reset .ret (List.replicate 4 (bypassedFrame [])) none).lane .ret).waiting.length = 4 ∧
    ((laneWith State.reset .ret (List.replicate 3 (bypassedFrame [])) (some (.sending [1]))).lane .ret).waiting.length < 4 ∧
    (State.reset.onService (fun v => { v with replySending := true })).service.replySending = true :=
  ⟨fun l => by cases l <;> exact ⟨rfl, rfl, rfl⟩, rfl, rfl, by decide, rfl⟩

/-- G1 in UNLOAD, G2 in REST and the other groups OFF, with a sweep at the head of each lane. -/
def sweepWaits : State :=
  laneWith (laneWith ((governed .unload).onLock 1 (fun l => { l with state := .rest })) .outbound
    [waitingFrame (sweep5 [setpointSlot])] none) .ret [waitingFrame (sweep5 [setpointSlot])] none

theorem witness_OutboundSweepSent :
    sweepWaits.outLane.hand = none ∧ sweepWaits.outLane.waiting = [waitingFrame (sweep5 [setpointSlot])] ∧
    frameKind (sweep5 [setpointSlot]) = 0xA1 ∧ sweepWaits.lead 0 = none ∧ sweepWaits.groupState 0 = .unload ∧
    sweepWaits.groupState 1 = .rest ∧ sweepWaits.groupState 2 = .off := by decide +kernel
theorem witness_ReturnSweepSent :
    sweepWaits.retLane.hand = none ∧ sweepWaits.retLane.waiting = [waitingFrame (sweep5 [setpointSlot])] ∧
    sweepWaits.service.replySending = false ∧
    (sweepWaits.onService (fun v => { v with replySending := true })).service.replySending = true ∧
    (∀ h : Hand, (laneWith live .ret [] (some h)).retLane.hand = some h) ∧
    blockPlace .strainBlock = blockPlace .feedbackIntake + 1 ∧ blockPlace .statusWriter = blockPlace .crackWatch + 1 :=
  ⟨rfl, rfl, rfl, rfl, fun _ => rfl, rfl, rfl⟩

/-- `sweepWaits` with every group OFF and G3 linked to G1. -/
def offWaits : State :=
  ((laneWith live .outbound [waitingFrame (sweep5 [setpointSlot])] none).onLock 2
    (fun l => { l with record := { l.record with lead := some 0 } }))

theorem witness_OffSweepWritesNone :
    offWaits.outLane.hand = none ∧ offWaits.outLane.waiting = [waitingFrame (sweep5 [setpointSlot])] ∧
    (∀ g, offWaits.groupState g = .off) ∧ (∀ g h, offWaits.lead g = some h → offWaits.lead h = none) ∧
    present? offWaits.crack offWaits.slotMap (readSweep (sweep5 [setpointSlot])).slots (.setpoint 0) =
      some (0, setpointSlot) := by decide +kernel

/-- A reply frame on either lane, and a service frame to another node on the outbound lane. -/
theorem witness_PassThroughSendsUnchanged :
    (∀ l, ((laneWith live l [waitingFrame [0xA3]] none).lane l).waiting = [waitingFrame [0xA3]]) ∧
    frameKind [0xA3] ≠ 0xA1 ∧ frameKind [0xA3] ≠ 0xA2 ∧ live.service.replySending = false ∧
    byteAt [0xA2, 11, 0, 18] 3 ≠ live.unit.nodeAddress.setWidth 8 :=
  ⟨fun l => by cases l <;> rfl, by decide, by decide, rfl, by decide⟩

/-- The three clauses: OUT-OUT, RET-OUT, and a frame that arrived in bypass at the head. -/
theorem witness_FrameSentFreesPort :
    (∀ l, ((laneWith live l [waitingFrame [0xA3]] (some (.sending [1]))).lane l).hand = some (.sending [1]) ∧
      ∀ w, ((laneWith live l [waitingFrame [0xA3]] (some (.sending [1]))).lane l).waiting.head? = some w →
        w.bypassed = false) ∧
    (∀ l, ((laneWith live l [bypassedFrame [2]] (some (.sending [1]))).lane l).waiting = [bypassedFrame [2]]) ∧
    (bypassedFrame [2]).bypassed = true :=
  ⟨fun l => by cases l <;> exact ⟨rfl, fun w h => by cases h; rfl⟩, fun l => by cases l <;> rfl, rfl⟩

/-- A reply in sending at RET-OUT, with or without a pending RESTART. -/
def replying (restart : Bool) : State :=
  live.onService (fun v =>
    { v with replies := [{ bytes := [1], restart := restart }], replySending := true, restartPending := restart })

theorem witness_ReplySentLeavesQueue (restart : Bool) :
    (replying restart).service.replySending = true ∧
    (replying restart).service.replies = [{ bytes := [1], restart := restart }] ∧
    (∀ b, (replying restart).retLane.hand ≠ some (.sending b)) := ⟨rfl, rfl, fun _ h => by cases h⟩

/-- The conditions of each clause: the line released and held, the supplies steady and not, start-up in progress. -/
theorem witness_ResetAndStartup :
    live.unit.lineHeld = false ∧ State.reset.unit.startup = true ∧ (17 : BitVec 6) ≠ 0 ∧
    (∃ t, exec .resetAssert live = .next t ∧ t.unit.lineHeld = true) ∧
    (∃ t, exec .powerOn live = .next t ∧ t.unit.suppliesSteady = false) :=
  ⟨rfl, rfl, by decide, ⟨_, rfl, rfl⟩, ⟨_, rfl, rfl⟩⟩
theorem witness_ResetCauseRecord :
    (∃ t, exec .powerOn live = .next t) ∧ live.unit.lineHeld = false ∧ (∃ t, exec .resetAssert live = .next t) ∧
    (∃ t, exec .replySent (replying true) = .next t) ∧ (replying true).service.restartPending = true ∧
    (1 : Half) ≠ 0 ∧ [(0 : Word)] ≠ [] :=
  ⟨⟨_, rfl⟩, rfl, ⟨_, rfl⟩, ⟨_, rfl⟩, rfl, by decide, by decide⟩

/-- The shaper with a sweep in hand, G1 in RUN on page 0 with phase step 16,384, at the phase `theta`. -/
def shapingAt (theta : Half) (st : GroupState) : Shaping :=
  (((governed st).onShape 0 (fun x => { x with theta := theta })).onPages 0 (fun y =>
    { y with pages := y.pages.alter 0 (fun p => { p with step := 16384 }) })).takeSweep
      { origin := 0, governor := 0, number := 5, slots := [setpointSlot] }

/-- Stage 7 of G1 in RUN, with an output for actuator 1, whose SETPOINT is present. -/
theorem witness_OutboundSweepSent_stage7 :
    let x := shapingAt 0 .run
    let outs : List Output := [{ act := 0, value := 310, quality := .limited }]
    x.working.entry 0 ≠ .off ∧ mapWf x.state.slotMap ∧ x.slots.length = x.received.length ∧
    (outs.map (fun o => o.act)).Nodup ∧ x.setpoint? 0 = some (0, setpointSlot) := by decide +kernel
/-- A group that cycles, at its greatest phase step, at a valley, at a peak and at neither; and one that does not cycle. -/
theorem witness_PhaseAdvances :
    (shapingAt 49152 .run).state.lead 0 = none ∧ ((shapingAt 49152 .run).state.activePage 0).step ≤ 16384 ∧
    (shapingAt 49152 .run).cycling.entry 0 = true ∧ (shapingAt 49152 .hold).cycling.entry 0 = false ∧
    (((shapingAt 49152 .run).stage1 0).crossings.entry 0).valley = true ∧
    (((shapingAt 16384 .run).stage1 0).crossings.entry 0).peak = true ∧
    ((shapingAt 0 .run).stage1 0).crossings.entry 0 = Crossing.none := by decide +kernel
/-- G2 and G3 name G1 as lead; G2 cycles and has the valley of G1, and G3 does not cycle and has none. -/
theorem witness_PhaseAdvances_lead :
    let x := (shapingAt 49152 .run).stage1 0
    let y : Shaping := { x with
      state := (x.state.onLock 1 (fun l => { l with record := { l.record with lead := some 0 } })).onLock 2 (fun l =>
        { l with record := { l.record with lead := some 0 } })
      cycling := x.cycling.alter 1 (fun _ => true) }
    y.state.lead 1 = some 0 ∧ y.cycling.entry 1 = true ∧ ((y.stage1 1).crossings.entry 1).valley = true ∧
    y.state.lead 2 = some 0 ∧ y.cycling.entry 2 = false ∧ (y.stage1 2).crossings.entry 2 = Crossing.none := by
  decide +kernel
theorem witness_WaveformWithinAmplitude :
    ∀ i : Fin 256, -32767 ≤ (cosineTable.alter 0 (fun _ => -32767)).entry i ∧
      (cosineTable.alter 0 (fun _ => -32767)).entry i ≤ 32767 := by decide +kernel
/-- The shaper as `shapingAt` has it, with this entry for actuator 1 and this group limit in page 0. -/
def shapingBy (e : PageEntry) (limit : Nat) (st : GroupState) : Shaping :=
  { shapingAt 0 st with
    state := ((shapingAt 0 st).state.onPages 0 (fun y =>
      { y with pages := y.pages.alter 0 (fun p =>
        { p with sumLimit := limit, entries := p.entries.alter 0 (fun _ => some e) }) })).onOutput 0 (fun o =>
          { o with hold := some 400 }) }

/-- An entry as 02 section 3.9 has it, and a pinned one; an output kept with a hold value, further from its floor than the
unload rate and at it; a SETPOINT present and absent. -/
theorem witness_EnvelopeAndSlew :
    let x := shapingBy { entryA5 with mode := .direct } 0 .run
    entryA5.fmin ≤ entryA5.fmax ∧ ({ entryA5 with fmin := 50000, fmax := 50000 } : PageEntry).fmin ≤ 50000 ∧
    (x.state.output 0).kept = some 300 ∧ (x.state.output 0).hold = some 400 ∧
    (x.state.activePage 0).entries.entry 0 = some { entryA5 with mode := .direct } ∧
    (((shapingAt 0 .run).state.activePage 0).entries.entry 0).map (fun e => e.mode) = some .cyclic ∧
    x.setpoint? 0 = some (0, setpointSlot) ∧ x.setpoint? 1 = none ∧
    (x.state.lock 0).record.unloadRate < ((x.state.actuator 0).floor - 300).natAbs ∧
    ((x.state.actuator 0).floor - 100).natAbs ≤ (x.state.lock 0).record.unloadRate := by decide +kernel
/-- Each working state, and the three cases: a sum within the limit, a new sum beyond it with the previous one within, and
both beyond, which trips with the source armed. -/
theorem witness_SumKeptWithinLimit :
    (∀ st ∈ [GroupState.off, .engaging, .run, .hold, .unload, .rest], (shapingAt 0 st).working.entry 0 = st) ∧
    (sumOf ((shapingBy entryA5 300 .engaging).stage3to6 0).2).natAbs = 300 ∧
    ((shapingBy entryA5 300 .run).stage3to6 0).2 = [{ act := 0, value := 300, quality := .limited }] ∧
    ((shapingBy entryA5 300 .run).candidate 0 .run 0).1 = 1100 ∧
    (((shapingAt 0 .engaging).state.shape 0).sumArmed = true ∧
      ((shapingAt 0 .engaging).stage3to6 0).1.working.entry 0 = .unload) := by decide +kernel
/-- G1 at a valley with one block to end in `target` cycles. -/
def atValley (target : Nat) (fresh : Fin 4) (act : EndAction) : Shaping :=
  let x := (shapingAt 49152 .run).stage1 0
  { x with state := x.state.onCycles 0 (fun c =>
      { c with schedule := [{ target := target, page := fresh, endAction := act }] }) }

/-- A valley whose count reaches the current target, one whose count does not, and one without a schedule. -/
theorem witness_CyclesCountedAndPagesSwapped_sequence :
    let counted := fun target : Nat => ((atValley target 0 .cont).countCycle 0).state.cycles.entry 0
    (atValley 1 0 .cont).state.lead 0 = none ∧ (atValley 1 0 .cont).cycling.entry 0 = true ∧
    ((atValley 1 0 .cont).crossings.entry 0).valley = true ∧
    (counted 1).block = 1 ∧ (counted 3).block ≠ 3 ∧ (counted 1).schedule[(counted 1).pointer]? =
      some { target := 1, page := 0, endAction := .cont } ∧
    ((((shapingAt 49152 .run).stage1 0).countCycle 0).state.cycles.entry 0).schedule = [] := by decide +kernel

/-- The valley of a cycling group, no crossing, and a group that does not cycle; a linked group and one that is not. -/
theorem witness_CyclesCountedAndPagesSwapped :
    (shapingAt 0 .run).cycling.entry 0 = true ∧ ((shapingAt 0 .run).crossings.entry 0).valley = false ∧
    (((shapingAt 49152 .run).stage1 0).crossings.entry 0).valley = true ∧ (shapingAt 0 .run).cycling.entry 1 = false ∧
    ¬((1 : Group) = 0 ∨ ((shapingAt 0 .run).state.lead 1 = some 0 ∧ (shapingAt 0 .run).cycling.entry 1 = true)) := by
  decide +kernel

/-- A block schedule of one entry, and one of two with the pointer at its first. -/
theorem witness_BlockBoundary :
    let e : BlockEntry := { target := 3, page := 0, endAction := .cont }
    let one := (shapingAt 0 .run).state.onCycles 0 (fun c => { c with schedule := [e] })
    let two := (shapingAt 0 .run).state.onCycles 0 (fun c => { c with schedule := [e, e] })
    ({ shapingAt 0 .run with state := one } : Shaping).state.cycles.entry 0 =
      { total := 0, block := 0, schedule := [e], pointer := 0 } ∧
    (one.cycles.entry 0).schedule[0]? = some e ∧ (two.cycles.entry 0).schedule[0 + 1]? = some e := by decide +kernel

/-- The end actions of a block boundary, the new page complete and not. -/
theorem witness_BlockBoundary_raise :
    (∀ act ∈ [EndAction.cont, .inspect, .unload], (atValley 1 0 act).state.complete 0 0 = true ∧
      ((atValley 1 0 act).state.cycles.entry 0).schedule[0]? = some { target := 1, page := 0, endAction := act }) ∧
    (atValley 1 1 .cont).state.complete 0 1 = false ∧
    ((atValley 1 1 .cont).endBlock 0 { target := 1, page := 1, endAction := .cont }).working.entry 0 = .hold ∧
    ((atValley 1 0 .unload).endBlock 0 { target := 1, page := 0, endAction := .unload }).working.entry 0 = .unload := by
  decide +kernel

/-- An UNLOAD raise that names G1. -/
def unloadRaise : Raise :=
  { source := .groupSum 0, level := 5, action := .unload, mask := 1, sweep := 5, capture := true, handed := .sum }

/-- A source with an entry and one without; a group that is moved and groups that are not; a log with room and a full one. -/
theorem witness_RaiseTaken :
    (busy.alarm.entry? (.groupSum 3)).isSome = true ∧ (governed .run).alarm.entry? unloadRaise.source = none ∧
    unloadRaise.mask.getLsbD 0 = true ∧ (governed .run).groupState 0 = .run ∧ unloadRaise.mask.getLsbD 1 = false ∧
    unloadRaise.asksCapture = true ∧ (governed .run).captures.queue.length < 32 ∧
    ({ unloadRaise with source := .crack 0, capture := false } : Raise).asksCapture = false := by decide +kernel
/-- The record of a RAISE capture: the moved group, and the output kept (R145, R146). -/
theorem test_raise_record :
    let records := ((governed .run).raised unloadRaise).captures.queue
    records.map (fun q => q.states.entry 0) = [.unload] ∧ records.map (fun q => q.outputs) = [[(0, 300)]] ∧
    records.map (fun q => q.strains) = [[]] := by decide +kernel

theorem witness_EngageIntervalEnds :
    ((governed .engaging).onLock 0 (fun l => { l with engageCount := 9, reportDue := true })).groupState 0 = .engaging ∧
    (((governed .engaging).onLock 0 (fun l => { l with engageCount := 9, reportDue := true })).lock 0).reportDue = true ∧
    (governed .run).groupState 0 ≠ .engaging := by decide +kernel
/-- Stage 8 in ENGAGING below the engage interval and at it, in UNLOAD with the floor reached and not, and in RUN. -/
theorem witness_EngageIntervalEnds_stage8 :
    let below := shapingAt 0 .engaging
    let last := ({ below with state := below.state.onLock 0 (fun l => { l with engageCount := 9 }) } : Shaping)
    let there := shapingAt 0 .unload
    let floored := ({ there with state := there.state.onActuator 0 (fun x => { x with floor := 300 }) } : Shaping)
    below.working.entry 0 = .engaging ∧ (below.state.lock 0).engageCount + 1 ≠ (below.state.lock 0).record.engageInterval ∧
    (last.state.lock 0).engageCount + 1 = (last.state.lock 0).record.engageInterval ∧
    there.working.entry 0 = .unload ∧ (there.state.output 0).kept ≠ some (there.state.actuator 0).floor ∧
    (∀ a, (floored.state.actuator a).group = some 0 →
      (floored.state.output a).kept = some (floored.state.actuator a).floor) ∧
    (shapingAt 0 .run).working.entry 0 = .run := by decide +kernel

/-- The sweep watch in RUNNING, the generator ORIGINATING. -/
def watched : State :=
  (governed .run).onWatch (fun w =>
    { w with state := .running, timer := some 20, originating := true, standTimer := some 1000, lastController := 65535 })

theorem witness_WatchExpires :
    watched.watch.state = .running ∧ watched.watch.settings.action = .unload ∧ watched.alarm.entry? .timeout = none ∧
    watched.groupState 0 = .run := by decide +kernel
theorem witness_StandInOriginated :
    watched.watch.originating = true ∧ watched.outLane.bypass = false ∧ mapWf watched.slotMap ∧
    watched.outLane.waiting.length < 4 ∧
    4 ≤ (laneWith watched .outbound (List.replicate 4 (waitingFrame [])) none).outLane.waiting.length := by decide +kernel
theorem witness_MarkerLinesFollow :
    ((live.onMarker 0 (fun m => { m with kind := .valley, group := 1, timer := some 1 })).markers.entry 0).kind.isPulse = true ∧
    (live.onMarker 0 (fun m => { m with kind := .held, group := 6 })).markers.entry 0 =
      { kind := .held, group := (5 : Group).val + 1, width := 1, activeLow := false, timer := none } ∧
    ((live.onMarker 3 (fun m => { m with kind := .notice })).markers.entry 3).kind = .notice := by decide +kernel
/-- The part in bypass with every line at its reset condition, and a MARKER command in the queue (R151). -/
theorem witness_MarkerLinesFollow_bypass :
    let s : State := { State.reset with pending := [.marker 1 [1, 1, 1, 0]] }
    s.outLane.bypass = true ∧ (∀ l : Line, s.markers.entry l = MarkerLine.atReset) ∧ ∃ t, step s = .next t :=
  ⟨rfl, by decide +kernel, _, rfl⟩
/-- The part in bypass with the sweep watch at its reset settings, and a WATCH command in the queue (R156). -/
theorem witness_MarkerLinesFollow_watch :
    let s : State := { State.reset with pending := [.watch 0 [50, 1, 5, 1, 500]] }
    s.outLane.bypass = true ∧ s.watch.settings = WatchSettings.atReset ∧ step s = .next State.reset := ⟨rfl, rfl, rfl⟩
/-- Three entries, two of one level: by level, then by source number (R137). -/
theorem witness_PresentedIsHighest_order :
    let entry := fun (src : Source) (level : Nat) =>
      ({ source := src, level := level, action := .note, mask := 0, seq := 0, sweep := 0 } : Entry)
    let t : AlarmTable :=
      { AlarmTable.atReset with entries := [entry (.strain 2) 5, entry .timeout 3, entry (.strain 1) 5] }
    (t.entries.map (·.source)).Nodup ∧ t.order.map (·.source) = [.strain 1, .strain 2, .timeout] := by decide +kernel
theorem witness_PresentedIsHighest : ∃ e, busy.alarm.presented = some e ∧ busy.alarm.floor < e.level := by
  refine ⟨{ source := .groupSum 3, level := 5, action := .unload, mask := 8, seq := 0, sweep := 5 }, ?_⟩
  decide +kernel

/-- A log and a table within their bounds, a notice presented and none, and a map with the four status roles, two of them present. -/
theorem witness_StatusGroupsFields :
    let map : List Binding := [{ slot := 1, role := .statusGroups }, { slot := 2, role := .statusFlags },
      { slot := 3, role := .notice }, { slot := 4, role := .noticeSeq }]
    let slot := fun n : Half => ({ number := n, kind := 7, quality := 0, value := 0 } : Slot)
    busy.captures.queue.length ≤ 32 ∧ busy.alarm.entries.length ≤ 357 ∧ (∀ e ∈ busy.alarm.entries, e.level ≤ 7) ∧
    busy.alarm.presented.isSome = true ∧ live.alarm.presented = none ∧ mapWf map ∧
    present? live.crack map [slot 4, slot 2] .noticeSeq = some (0, slot 4) ∧
    present? live.crack map [slot 4, slot 2] .statusFlags = some (1, slot 2) ∧
    present? live.crack map [slot 4, slot 2] .notice = none ∧
    sweepWaits.retLane.hand = none ∧ sweepWaits.retLane.waiting = [waitingFrame (sweep5 [setpointSlot])] ∧
    frameKind (sweep5 [setpointSlot]) = 0xA1 ∧ sweepWaits.service.replySending = false := by decide +kernel

/-- Each clause of the feedback: the eight qualities, and the arming. -/
theorem witness_FeedbackTaken :
    qualityOf 1 = .good ∧ qualityOf 0 = .none ∧ qualityOf 2 = .held ∧ qualityOf 6 = .uncal ∧ qualityOf 0xFF = .fault ∧
    ((governed .run).actuator 0).armed = true ∧ (governed .run).alarm.entry? (.drive 0) = none ∧
    ((governed .run).actuator 0).group = some 0 ∧
    (((governed .run).onActuator 0 (fun x => { x with armed := false })).actuator 0).armed = false := by decide +kernel
/-- A FAULT of actuator 1 in G1, and of actuator 2 in no group: the masks of the entries (R94). -/
theorem test_drive_fault_mask :
    let fault : Slot := { number := 1, kind := 2, quality := 7, value := 0 }
    qualityOf fault.quality = .fault ∧ ((governed .run).takeFeedback 0 fault 5).alarm.entries.map (·.mask) = [1] ∧
    (((governed .run).onActuator 1 (fun x => { x with armed := true })).takeFeedback 1 fault 5).alarm.entries.map (·.mask) = [0] :=
  by decide +kernel

/-- `live` with STRAIN role 143 bound to slot 2 and calibrated as in 05 section 6.4. -/
def gauge143 : State :=
  ({ live with slotMap := [{ slot := 2, role := .strain 143 }] } : State).onStrain 143 (fun ch =>
    { ch with cal := some { zero := 0, gain := 32768, comp := none } })
/-- A return sweep with that channel's slot. -/
def reading143 (value : Word) : Reading :=
  { map := gauge143.slotMap, slots := [{ number := 2, kind := 3, quality := 1, value := value }] }

/-- A true half, and the channel conditioned in both directions of the bound. -/
theorem witness_ConditioningRounds :
    2 * (65536 * conditionRaw { zero := 0, gain := 32768, comp := none } 1 - 32768).natAbs = 65536 ∧
    (reading143 1).conditioned gauge143 143 = some (1, .good) ∧
    (reading143 0x7FFFFFFF).conditioned gauge143 143 = some (50000, .saturated) ∧
    (conditionRaw { zero := 0, gain := 32768, comp := none } 100000).natAbs ≤ 50000 := by decide +kernel

/-- `gauge143` with channel 144 bound to slot 3, and channel 143 compensated by it. -/
def gaugePair : State :=
  (({ gauge143 with slotMap := gauge143.slotMap ++ [{ slot := 3, role := .strain 144 }] } : State).onStrain 144 (fun ch =>
    { ch with cal := some { zero := 0, gain := 65536, comp := none } })).onStrain 143 (fun ch =>
      { ch with cal := some { zero := 0, gain := 65536, comp := some 144 } })
/-- A return sweep with the slots of both channels, the second with this quality and value, and of one without a role. -/
def readingPair (quality : Byte) (value : Word) : Reading :=
  { map := gaugePair.slotMap
    slots := [{ number := 2, kind := 3, quality := 1, value := 700 }, { number := 3, kind := 3, quality := quality, value := value },
      { number := 9, kind := 3, quality := 1, value := 5 }] }

/-- A compensated channel: its compensation channel GOOD, beyond the bound, not GOOD, absent, and without a record; a slot
that is not GOOD, a channel without a record, and a slot without a role. -/
theorem witness_ConditioningRounds_compensated :
    mapWf (readingPair 1 60).map ∧
    (readingPair 1 60).conditioned gaugePair 143 = some (640, .good) ∧
    (readingPair 1 60000).conditioned gaugePair 143 = some (700, .uncomp) ∧
    (readingPair 2 60).conditioned gaugePair 143 = some (700, .uncomp) ∧
    present? gaugePair.crack gauge143.slotMap (readingPair 1 60).slots (.strain 144) = none ∧
    (readingPair 2 60).conditioned gaugePair 144 = none ∧
    ((gaugePair.onStrain 144 (fun ch => { ch with cal := none })).strain.entry 144).cal = none ∧
    roleAt? gaugePair.slotMap 9 = none := by decide +kernel

/-- Sweeps beyond the watch state in both directions, without a run, with one, and at the debounce; and a steady one. -/
theorem witness_WatchStateMoves_counted :
    Band.normal.toCode < (limit140.plainBand 910).toCode ∧ (limit140.releaseBand 0).toCode < Band.stop.toCode ∧
    ¬Band.stop.toCode < (limit140.plainBand 0).toCode ∧ ¬Band.normal.toCode < (limit140.plainBand 0).toCode ∧
    ¬(limit140.releaseBand 0).toCode < Band.normal.toCode ∧
    (channel140 .normal 0 none 0 true).judgeValue limit140 910 = channel140 .normal 1 (some (.moreSevere, .stop)) 0 true ∧
    (channel140 .stop 1 (some (.lessSevere, .normal)) 0 true).judgeValue limit140 700 =
      channel140 .stop 2 (some (.lessSevere, .warn)) 0 true := by decide +kernel

/-- The record of 6.7, one with its hysteresis at its greatest, and channels with a run of each direction. -/
theorem witness_WatchStateMoves :
    limit140.warnLow < limit140.warnHigh ∧ limit140.stopLow ≤ limit140.warnLow ∧ limit140.warnHigh ≤ limit140.stopHigh ∧
    2 * (limit140.hysteresis : Int) ≤ limit140.warnHigh - limit140.warnLow ∧
    2 * ((600 : Nat) : Int) ≤ limit140.warnHigh - limit140.warnLow ∧
    (channel140 .normal 2 (some (.moreSevere, .warn)) 0 true).runWf ∧
    (channel140 .stop 2 (some (.lessSevere, .normal)) 0 true).runWf :=
  ⟨by decide, by decide, by decide, by decide, by decide, by show 0 < 1; decide, by show 0 < 2; decide⟩
/-- A sweep that takes channel 143, with a debounce of 1, from NORMAL into STOP: the one raise of the strain block. -/
theorem witness_WatchStateMoves_raise :
    let s := gauge143.onStrain 143 (fun ch => { ch with limit := some { limit140 with debounce := 1 } })
    (reading143 4000).strainRaises s 9 =
      [{ source := .strain 143, level := 4, action := .hold, mask := 2, sweep := 9, capture := true, handed := .alarm }] ∧
    ((s.strainJudged (reading143 4000)).strain.entry 143).watch = .stop := by decide +kernel

/-- A reading against the condition below and at the debounce, in and out of the sensor fault; a set with a record. -/
theorem witness_CrackChannelsEvaluated :
    (true ≠ CrackChannel.atReset.condition ∧ CrackChannel.atReset.debounce + 1 < wire5.debounce) ∧
    wire5.debounce ≤ ({ CrackChannel.atReset with debounce := 2 } : CrackChannel).debounce + 1 ∧
    CrackChannel.atReset.sensorFault = false ∧
    (({ CrackChannel.atReset with sensorFault := true, armed := false, debounce := 2 } : CrackChannel).wireStep wire5 .intact).channel =
      CrackChannel.atReset ∧
    (({ CrackChannel.atReset with sensorFault := true, armed := false, debounce := 2 } : CrackChannel).wireStep wire5 .broken).raise =
      some .unload ∧
    ({ CoincidenceSet.atReset with record := some {
        members := [12, 13, 41], minimum := 2, level := 6, action := .unload, mask := 7, capture := true } } :
      CoincidenceSet).record.isSome = true := by decide
/-- A slot of this quality and value, at place 0. -/
def slotOf (quality : Byte) (value : Word) : Option (Nat × Slot) :=
  some (0, { number := 2, kind := 5, quality := quality, value := value })
/-- The readings and hit counts of R119 and R122 at the ends of their ranges, and for a slot that is not GOOD. -/
theorem witness_CrackChannelsEvaluated_slots :
    wireReadingOf (slotOf 1 0) = .intact ∧ wireReadingOf (slotOf 1 1) = .broken ∧
    wireReadingOf (slotOf 1 2) = .openCircuit ∧ wireReadingOf (slotOf 1 0xFFFFFFFF) = .openCircuit ∧
    wireReadingOf (slotOf 7 0) = .openCircuit ∧ wireReadingOf (slotOf 2 1) = .none ∧
    hitsOf (slotOf 1 0xFFFFFFFF) = 0 ∧ hitsOf (slotOf 1 65535) = 65535 ∧ hitsOf (slotOf 1 65536) = 65535 ∧
    hitsOf (slotOf 7 9) = 0 ∧ hitsOf (slotOf 2 9) = 0 := by decide
/-- `live` with CRACK role 5 bound to slot 2, its record that of 06 section 7.7 with a debounce of 1, and set 2 of that
channel. -/
def wired5 : State :=
  (({ live with slotMap := [{ slot := 2, role := .crack 5 }] } : State).onCrack 5 (fun ch =>
    { ch with record := some { wire5 with debounce := 1 } })).onSet 1 (fun st =>
      { st with record := some { members := [5], minimum := 1, level := 3, action := .hold, mask := 7, capture := false } })
/-- A broken reading makes the condition true, and the set is raised before the channel (R118, R129). -/
theorem witness_CrackChannelsEvaluated_raises :
    let rd : Reading := { map := wired5.slotMap, slots := [{ number := 2, kind := 5, quality := 1, value := 1 }] }
    ((wired5.crack.entry 5).record.map (fun r => r.kind)) = some .wire ∧ (wired5.crack.entry 6).record = none ∧
    ((wired5.sets.entry 1).record).isSome = true ∧
    (rd.watchRaises wired5 9).map (fun r => (r.source.number, r.action)) = [(33, .hold), (69, .unload)] := by
  decide +kernel

/-! #### Service commands: nothing is owed in these states, so that each is what the command finds -/

theorem live_finishBlock : live.finishBlock = live := rfl
theorem governed_finishBlock (st : GroupState) : (governed st).finishBlock = governed st := rfl
theorem busy_finishBlock : busy.finishBlock = busy := rfl
/-- A return sweep whose strain block still owes a raise of channel 12 (R98). -/
def owing : State :=
  laneWith (governed .run) .ret [] (some (.processing { origin := 0, governor := 0, number := 9, slots := [] } [] .crackWatch
    [{ source := .strain 12, level := 4, action := .hold, mask := 1, sweep := 9, capture := true, handed := .alarm }]))
/-- A MAP that resets channel 12 falls after the raise: the entry and its capture stand, and nothing is owed. -/
theorem test_item_after_owed_raises :
    ∃ t, exec (.map 2 [natWord (Role.strain 12).code]) owing = .next t ∧
      t.alarm.entries.map (fun e => e.source) = [.strain 12] ∧ t.captures.queue.length = 1 ∧ t.owed = [] ∧
      t.slotMap.length = 2 := ⟨_, rfl, by decide +kernel⟩

/-- HOLD of a group that is OFF is refused with STATE. -/
theorem witness_RefusedCommandChangesNothing :
    commandItem? (.hold 1 []) = some (0x22, 1) ∧ ∃ t, exec (.hold 1 []) live = .next t ∧
      t.service.results = live.service.results ++ [{ code := 0x22, result := .state, index := 1, words := [] }] :=
  ⟨rfl, _, rfl, by decide +kernel⟩
theorem witness_QualifiersSet : (3 : Half).toNat ≤ 3 ∧ ¬ (4 : Half).toNat ≤ 3 := by decide

/-- A free role and number, a standing binding, a role with an assigned actuator whose group is OFF, a number without a role. -/
theorem witness_MapBindsAndUnbinds :
    roleAt? live.slotMap 2 = none ∧ slotOf? live.slotMap (.strain 255) = none ∧
    roleAt? live.slotMap 1 = some (.setpoint 0) ∧ slotOf? live.slotMap (.setpoint 0) = some 1 ∧
    ((governed .off).actuator 0).group = some 0 ∧ (governed .off).groupState 0 = .off := by decide +kernel
/-- Words at the ends of their ranges, a role whose actuator's group is not OFF, and a number and a role bound otherwise. -/
theorem witness_MapBindsAndUnbinds_refused :
    (0x0110 : Word) = natWord (Role.setpoint 15).code ∧ roleCode? 0x0111 = none ∧ roleCode? 0x0440 = none ∧
    roleCode? 0x10000 = none ∧ (0x08FF : Word).toNat % 256 = 255 ∧
    (Role.setpoint 0).actuator? = some 0 ∧ ((governed .run).actuator 0).group = some 0 ∧
    (governed .run).groupState 0 ≠ .off ∧ roleAt? (governed .run).slotMap 1 = some (.setpoint 0) ∧
    (Role.setpoint 0 ≠ Role.notice ∧ slotOf? live.slotMap (.setpoint 0) = some 1 ∧ (1 : Half) ≠ 2) := by decide +kernel
theorem witness_HoldUnloadDisengage : (1 : Half).toNat = (0 : Group).val + 1 ∧ (6 : Half).toNat = (5 : Group).val + 1 := by
  decide
/-- The indexes beside the groups, and a word where none may stand. -/
theorem witness_HoldUnloadDisengage_refused :
    6 < (7 : Half).toNat ∧ (6 : Half) ≠ 0 ∧ (6 : Half).toNat ≤ 6 ∧ [(0 : Word)] ≠ [] := by decide
theorem witness_ReleaseChecksAndMoves_refused :
    6 < (7 : Half).toNat ∧ (1 : Half) ≠ 0 ∧ (1 : Half).toNat ≤ 6 ∧ [(0 : Word)] ≠ [] := by decide
/-- Each check of RELEASE met and passed by some state. -/
theorem witness_ReleaseChecksAndMoves :
    (1 : Half).toNat = (0 : Group).val + 1 ∧ (governed .run).groupState 0 = .run ∧ (governed .hold).groupState 0 = .hold ∧
    (∀ a, (live.actuator a).group ≠ some 0) ∧ ((governed .off).actuator 0).seed = some 300 ∧
    ((governed .off).activePage 0).entries.entry 0 = some entryA5 := by decide +kernel
theorem witness_InterlockRecordsWritten :
    (16 : Half).toNat = (15 : Actuator).val + 1 ∧ (6 : Half).toNat = (5 : Group).val + 1 ∧
    1 ≤ GroupRecord.atReset.unloadRate ∧ GroupRecord.atReset.unloadRate ≤ 65535 ∧ 1 ≤ GroupRecord.atReset.engageInterval ∧
    GroupRecord.atReset.engageInterval ≤ 255 ∧ GroupRecord.atReset.sumLevel ≤ 7 ∧ GroupRecord.atReset.blockLevel ≤ 7 ∧
    GroupRecord.atReset = { unloadRate := 100, engageInterval := 10, lead := none, sumLevel := 7, blockLevel := 7 } := by
  decide
/-- A group number of 7, and a record of too few words. -/
theorem witness_InterlockRecordsWritten_refused :
    16 < (17 : Half).toNat ∧ 6 < (7 : Half).toNat ∧ (16 : Half).toNat ≤ 16 ∧ (16 : Half) ≠ 0 ∧
    (∀ (named : Option Group) (floor : Int) (level : Nat),
      [7, 0, 7] ≠ [natWord (numberOrZero named), intWord floor, natWord level]) ∧
    (∀ r : GroupRecord, [100, 10, 0, 7] ≠ [natWord r.unloadRate, natWord r.engageInterval, natWord (numberOrZero r.lead),
      natWord r.sumLevel, natWord r.blockLevel]) := by
  refine ⟨by decide, by decide, by decide, by decide, fun named floor level h => ?_, fun r h => by simp at h⟩
  have h1 : ∀ g : Option Group, (7 : Word) ≠ natWord (numberOrZero g) := by decide
  exact h1 named (List.cons.inj h).1
theorem witness_PagesWritten :
    (live.onService (fun v => { v with page := some 3 })).service.page = some 3 ∧
    (1552 : Half).toNat = 256 * ((5 : Group).val + 1) + ((15 : Actuator).val + 1) ∧
    -400000 ≤ entryA5.mean ∧ entryA5.mean ≤ 400000 ∧ entryA5.amplitude ≤ 200000 ∧ -400000 ≤ entryA5.fmin ∧
    entryA5.fmin ≤ entryA5.fmax ∧ entryA5.fmax ≤ 400000 ∧ 1 ≤ entryA5.slew ∧ entryA5.slew ≤ 65535 := by
  refine ⟨rfl, ?_⟩; decide
/-- No qualifier, a part of a group or an actuator that there is not, and records of too few words. -/
theorem witness_PagesWritten_refused :
    live.service.page = none ∧ (live.onService (fun v => { v with page := some 3 })).service.page ≠ none ∧
    6 < (7 : Half).toNat ∧ (∀ (g : Group) (a : Actuator), (1553 : Half).toNat ≠ 256 * (g.val + 1) + (a.val + 1)) ∧
    (∀ (g : Group) (a : Actuator), (256 : Half).toNat ≠ 256 * (g.val + 1) + (a.val + 1)) ∧
    (∀ step limit : Nat, [0] ≠ [natWord step, natWord limit]) ∧
    (∀ e : PageEntry, [0] ≠ [natWord e.mode.toCode, intWord e.mean, natWord e.amplitude, natWord e.offset.toNat,
      natWord e.shape.val, intWord e.fmin, intWord e.fmax, natWord e.slew]) :=
  ⟨rfl, nofun, by decide, by decide, by decide, fun _ _ => by simp, fun _ => by simp⟩
theorem witness_CommitAndShape :
    (6 : Half).toNat = (5 : Group).val + 1 ∧ ∀ i : Fin 16, -32767 ≤ (fun _ => -32767 : Fin 16 → Int) i ∧
      (fun _ => -32767 : Fin 16 → Int) i ≤ 32767 := by decide
/-- Page 4, a first entry that is no multiple of 16 and one of a table that there is not, and seven words. -/
theorem witness_CommitAndShape_refused :
    6 < (7 : Half).toNat ∧ (6 : Half) ≠ 0 ∧ (∀ p : Fin 4, [4] ≠ [natWord p.val]) ∧
    (∀ (t : Fin 4) (k : Fin 16), (1009 : Half).toNat ≠ 256 * t.val + 16 * k.val) ∧
    (∀ (t : Fin 4) (k : Fin 16), (1024 : Half).toNat ≠ 256 * t.val + 16 * k.val) ∧
    (1008 : Half).toNat = 256 * (3 : Fin 4).val + 16 * (15 : Fin 16).val ∧
    (∀ entries : Fin 16 → Int, List.replicate 7 0 ≠ (List.finRange 8).map (fun j =>
      packPair (entries ⟨2 * j.val, by omega⟩) (entries ⟨2 * j.val + 1, by omega⟩))) := by
  refine ⟨by decide, by decide, by decide, by decide, by decide, by decide, fun entries h => ?_⟩
  simpa using congrArg List.length h
/-- A schedule of fifteen entries, so that index 15 adds the sixteenth and index 14 removes the last. -/
theorem witness_ScheduleCommands :
    let s := live.onCycles 5 (fun c =>
      { c with schedule := List.replicate 15 { target := 16777215, page := 3, endAction := .unload } })
    s.groupState 5 = .off ∧ (1551 : Half).toNat = 256 * ((5 : Group).val + 1) + 15 ∧
    15 ≤ (s.cycles.entry 5).schedule.length ∧ 14 + 1 = (s.cycles.entry 5).schedule.length ∧
    (governed .hold).groupState 0 = .hold ∧ (governed .rest).groupState 0 = .rest := by decide +kernel
/-- The indexes beside the groups, an entry behind the end of the schedule, target 0, and G1 in ENGAGING, RUN and UNLOAD with
one entry. -/
theorem witness_ScheduleCommands_refused :
    let s := fun st => (governed st).onCycles 0 (fun c =>
      { c with schedule := [{ target := 5, page := 0, endAction := .cont }] })
    (255 : Half).toNat < 256 ∧ 7 * 256 ≤ (1792 : Half).toNat ∧ (258 : Half).toNat = 256 * ((0 : Group).val + 1) + 2 ∧
    (∀ st ∈ [GroupState.engaging, .run, .unload], (s st).groupState 0 = st ∧ ((s st).cycles.entry 0).schedule.length = 1) ∧
    (∀ e : BlockEntry, ¬(1 ≤ e.target ∧ e.target ≤ 16777215 ∧
      [0, 0, 0] = [natWord e.target, natWord e.page.val, natWord e.endAction.toCode])) := by
  refine ⟨by decide, by decide, by decide, by decide +kernel, fun e h => ?_⟩
  have h1 := congrArg BitVec.toNat (List.cons.inj h.2.2).1
  simp only [natWord, BitVec.toNat_ofNat] at h1
  have h2 : e.target % 2 ^ 32 = e.target := Nat.mod_eq_of_lt (by omega)
  have h3 : (0 : Word).toNat = 0 := rfl
  omega
theorem witness_ChannelRecordsWritten :
    (255 : Half).toNat = (255 : Fin 256).val ∧ (63 : Half).toNat = (63 : Fin 64).val ∧ (8 : Half).toNat = (7 : Fin 8).val + 1 ∧
    limit140.hysteresis ≤ 5000 ∧ 1 ≤ limit140.debounce ∧ limit140.debounce ≤ 15 ∧ limit140.level ≤ 7 ∧
    wire5.decay ≤ 8 ∧ ae40.threshold ≤ 16777215 ∧ ([0, 1, 2, 3, 4, 5, 6, 63] : List (Fin 64)).Nodup := by decide
/-- The indexes beside the ranges, records of one word, and members in the second and the last of the eight bytes. -/
theorem witness_ChannelRecordsWritten_refused :
    255 < (256 : Half).toNat ∧ 63 < (64 : Half).toNat ∧ 8 < (9 : Half).toNat ∧ (8 : Half) ≠ 0 ∧
    (∀ r : Calibration, [0] ≠ [intWord r.zero, natWord r.gain, optWord (r.comp.map (·.val)) 65535]) ∧
    (∀ r : LimitRecord, [0] ≠ [intWord r.warnLow, intWord r.warnHigh, intWord r.stopLow, intWord r.stopHigh,
      natWord r.hysteresis, natWord r.debounce, natWord r.level, natWord r.action.toCode, natWord r.mask.toNat,
      boolWord r.capture]) ∧
    (wordBytes 0xFFFF3FFF ++ wordBytes 0x00FFFFFF).filter (fun b => b != 255) =
      ([63, 0] : List (Fin 64)).map (fun k => BitVec.ofNat 8 k.val) :=
  ⟨by decide, by decide, by decide, by decide, fun _ => by simp, fun _ => by simp, by decide⟩
theorem witness_SettingsWritten :
    ([0, 1, 254, 255] : List (Fin 256)).Nodup ∧ (4 : Half).toNat = (3 : Line).val + 1 ∧
    (MarkerLine.atReset.kind.namesGroup = true → MarkerLine.atReset.group ≠ 0) ∧ MarkerLine.atReset.timer = none ∧
    WatchSettings.atReset.action ≠ .note ∧ WatchSettings.atReset.period % 50 = 0 ∧ (250 : Nat) % 50 = 0 ∧
    live.outLane.bypass = false ∧ State.reset.finishBlock.outLane.bypass = true := by decide
/-- Floor 8, settings of too few words, and the indexes beside the lines. -/
theorem witness_SettingsWritten_refused :
    (1 : Half) ≠ 0 ∧ 4 < (5 : Half).toNat ∧ (4 : Half).toNat ≤ 4 ∧
    (∀ f : Nat, f ≤ 7 → [8] ≠ [natWord f]) ∧
    (∀ (mark : Nat) (cs : List (Fin 256)), cs.length ≤ 4 → List.replicate 6 1 ≠ natWord mark :: cs.map (fun c => natWord c.val)) ∧
    (∀ m : MarkerLine, [1] ≠ [natWord m.kind.toCode, natWord m.group, natWord m.width, boolWord m.activeLow]) ∧
    (∀ c : WatchSettings, [1] ≠ [natWord c.interval, natWord c.action.toCode, natWord c.level, boolWord c.enable,
      natWord c.period]) := by
  refine ⟨by decide, by decide, by decide, by decide, fun mark cs h e => ?_, fun _ => by simp, fun _ => by simp⟩
  have := congrArg List.length e
  simp at this
  omega
theorem witness_AckClearFlagsRestart : ∃ e ∈ busy.alarm.entries, e.source = .groupSum 3 := by decide +kernel
/-- Unused source numbers, one above the last, and the last. -/
theorem witness_AckClearFlagsRestart_refused :
    (∀ src : Source, (29 : Half).toNat ≠ src.number) ∧ (∀ src : Source, (384 : Half).toNat ≠ src.number) ∧
    (383 : Half).toNat = (Source.strain 255).number ∧ (1 : Half) ≠ 0 ∧ [(0 : Word)] ≠ [] := by
  refine ⟨fun src => ?_, fun src => ?_, by decide, by decide, by decide⟩ <;>
    cases src <;> simp [Source.number, numberOf] <;> omega
theorem witness_ReadPendingReturnsEntry :
    busy.alarm.floor = 0 ∧ (∀ e ∈ busy.alarm.entries, 1 ≤ e.level) ∧ (busy.alarm.order[0]?).isSome = true ∧
    busy.alarm.order[1]? = none := by decide +kernel
/-- A log of 32 records, made from one. -/
def fullLog : State := { busy with captures := { busy.captures with queue := List.replicate 32 (busy.captureRecord .manual 5) } }
theorem witness_CaptureCommand : busy.captures.queue.length < 32 ∧ 32 ≤ fullLog.captures.queue.length ∧ (1 : Half) ≠ 0 := by
  decide +kernel
theorem witness_ReadCaptureReturnsOldest :
    (∃ r rest, busy.captures.queue = r :: rest ∧ (5 : Nat) ≤ 5) ∧ live.captures.queue = [] ∧
    ¬((6 : Half).toNat ≤ 5 ∨ (256 ≤ (6 : Half).toNat ∧ (6 : Half).toNat ≤ 261)) ∧ 256 ≤ (261 : Half).toNat :=
  ⟨⟨_, _, rfl, by decide⟩, rfl, by decide, by decide⟩
/-- Indexes at the ends of the ranges of the views, a PAGE qualifier and none, and the checks of READ. -/
theorem witness_ReadReturnsViews :
    (busy.lock 1).cause = none ∧ (16 : Half).toNat = (15 : Actuator).val + 1 ∧ (6 : Half).toNat = (5 : Group).val + 1 ∧
    (1008 : Half).toNat = 256 * (3 : Fin 4).val + 16 * (15 : Fin 16).val ∧
    (1552 : Half).toNat = 256 * ((5 : Group).val + 1) + ((15 : Actuator).val + 1) ∧
    (1551 : Half).toNat = 256 * ((5 : Group).val + 1) + 15 ∧ (383 : Half).toNat = (Source.strain 255).number ∧
    source? 29 = none ∧ (255 : Half).toNat = (255 : Fin 256).val ∧ (63 : Half).toNat = (63 : Fin 64).val ∧
    (8 : Half).toNat = (7 : Fin 8).val + 1 ∧ (4 : Half).toNat = (3 : Line).val + 1 ∧ live.service.page = none ∧
    live.slotMap[(0 : Half).toNat]? = some { slot := 1, role := .setpoint 0 } ∧ live.slotMap.length ≤ (383 : Half).toNat ∧
    23 < (24 : Word).toNat := by decide +kernel
/-- The service frame at the head of the outbound lane, with no reply standing and with four. -/
theorem witness_ServiceFrameTaken :
    (laneWith live .outbound [waitingFrame serviceFrame17] none).outLane.waiting = [waitingFrame serviceFrame17] ∧
    frameKind serviceFrame17 = 0xA2 ∧ byteAt serviceFrame17 3 = live.unit.nodeAddress.setWidth 8 ∧
    frameGood serviceFrame17 = true ∧ live.service.replies.length < 4 ∧
    4 ≤ (live.onService (fun v =>
      { v with replies := List.replicate 4 { bytes := [], restart := false } })).service.replies.length := by
  decide +kernel

/-- Items that a command stands for, one that none stands for, a RESTART that passes and one that does not, and qualifiers
that are left over. -/
theorem witness_ServiceFrameTaken_items :
    itemOf? (.clearFlags 0 []) = some { code := 0x28, index := 0, args := [] } ∧
    (∀ c, itemOf? c ≠ some { code := 0x99, index := 7, args := [] }) ∧
    live.service.frameEnded = false ∧ (applyItems [{ code := 0x2F, index := 0, args := [] }] live).service.frameEnded = true ∧
    (applyItems [{ code := 0x2F, index := 1, args := [] }] live).service.frameEnded = false ∧
    (applyItems [{ code := 0x01, index := 2, args := [] }] live).service.page = some 2 := by
  refine ⟨rfl, ?_, rfl, by decide +kernel, by decide +kernel, by decide +kernel⟩
  intro c
  cases c <;> intro h <;> cases h

/-! ### Worked sequences -/

/-- The four raises of Figure 8-3, with the levels, actions and masks of Figure 8-2. -/
def raises7310 : List Raise :=
  [{ source := .drive 2, level := 4, action := .unload, mask := 1, sweep := 7310, capture := true, handed := .drive },
   { source := .strain 12, level := 6, action := .hold, mask := 2, sweep := 7310, capture := true, handed := .alarm },
   { source := .coincidence 1, level := 6, action := .unload, mask := 6, sweep := 7310, capture := true, handed := .alarm },
   { source := .crack 6, level := 2, action := .note, mask := 0, sweep := 7310, capture := false, handed := .alarm }]

/-- The part of 8.5 after return sweep 7,310: floor 3, raise counter 18, G1 to G3 in RUN. -/
def after7310 : State :=
  ({ live with
    alarm := { entries := [], floor := 3, counter := 18 }
    interlock := { live.interlock with groups := live.interlock.groups.alterAll (fun g l =>
      if g.val < 3 then { l with state := .run } else l) } } : State).raisedAll raises7310

/-- Figure 8-3: the groups, the hold cause of G2, and the two notice words. -/
theorem test_ordering_example :
    after7310.groupState 0 = .unload ∧ after7310.groupState 1 = .unload ∧ after7310.groupState 2 = .unload ∧
    (after7310.lock 1).cause = some { cause := .alarm, source := some (.coincidence 1), sweep := 7310 } ∧
    after7310.noticeWord = BitVec.ofNat 32 (33 + 6 * 2 ^ 9 + 2 * 2 ^ 12 + 4 * 2 ^ 16) ∧
    after7310.noticeSeqWord = BitVec.ofNat 32 (20 + 7310 * 2 ^ 16) ∧ after7310.captures.queue.length = 3 := by
  decide +kernel

/-- Start-up with strap number 17, and with 0 (R11). -/
theorem test_startup : (State.reset.startupDone 17).outLane.bypass = false ∧ (State.reset.startupDone 0).outLane.bypass = true := by
  decide
/-- A bad sweep is discarded and counted (R4). -/
theorem test_bad_frame_counted : (live.arrive .ret [0xA1, 1, 0, 0, 0]).retLane.badFrames = 1 := by decide +kernel
/-- An expiry of the sweep watch during the shaping moves G1 and leaves the sweep shaped in RUN (R28). -/
theorem test_expiry_during_shaping :
    ((laneWith watched .outbound [waitingFrame (sweep5 [setpointSlot])] none).outboundSweep [[.watchExpiry]]).groupState 0 =
      .unload ∧
    ((laneWith (watched.onPages 0 (fun y => { y with pages := y.pages.alter 0 (fun p => { p with sumLimit := 6400000 }) }))
      .outbound [waitingFrame (sweep5 [setpointSlot])] none).outboundSweep [[.watchExpiry]]).shape 0 =
        { theta := 0, lastShaped := some .run, cycling := false, sumArmed := true } := by decide +kernel
/-- A watch expiry that falls between two raises of one return block takes the raise counter between them (R132). -/
theorem test_expiry_between_raises :
    (((laneWith watched .ret [] (some (.processing { origin := 0, governor := 0, number := 9, slots := [] } [] .strainBlock
      [{ unloadRaise with source := .drive 0 }, { unloadRaise with source := .drive 1 }]))).returnSweep
        ⟨.feedbackIntake, some 1⟩).watchExpiry.returnSweep ⟨.feedbackIntake, none⟩).alarm.entries.map
          (fun e => (e.source, e.seq)) = [(.timeout, 1), (.drive 0, 0), (.drive 1, 2)] := by decide +kernel
/-- An expiry that falls in G1's place between stages 2 and 3 comes before the raise of its trip in stage 6 (R132). -/
theorem test_expiry_before_trip :
    ((laneWith watched .outbound [waitingFrame (sweep5 [setpointSlot])] none).outboundSweep
      [[], [], [.watchExpiry]]).alarm.entries.map (fun e => (e.source, e.seq)) = [(.timeout, 0), (.groupSum 0, 1)] := by
  decide +kernel
/-- A service frame applied whole: one result, OK, in a reply that passes its checks (R165, R171). -/
theorem test_service_frame :
    ((laneWith live .outbound [waitingFrame serviceFrame17] none).serviceFrame.service.replies.map (fun r => r.bytes)) =
      [replyBytes 17 5 [{ code := 0x28, result := .ok, index := 0, words := [] }]] := by decide +kernel

end Sys2Proof.Tests
end

section
/-! PROOF. The status words and where a return sweep carries them (R20 to R23): the fields of a word that is given as a number,
the four words by their fields, the status writer as one pass over its roles, and a return sweep taken through all blocks. -/

namespace Sys2Proof.Machine

open Sys2Proof

/-! ### Fields of a word given as a number -/

theorem bitAt_eq (b : Bool) (i : Nat) : bitAt b i = b.toNat * 2 ^ i := by cases b <;> simp [bitAt]

theorem natWord_field_toNat (n : Nat) {i k : Nat} (h : i + k ≤ 32) :
    ((natWord n).extractLsb' i k).toNat = n / 2 ^ i % 2 ^ k := by
  have hpow : (2 : Nat) ^ 32 = 2 ^ i * 2 ^ (32 - i) := by rw [← pow_add]; congr 1; omega
  have hdvd : (2 : Nat) ^ k ∣ 2 ^ (32 - i) := pow_dvd_pow 2 (by omega)
  rw [BitVec.extractLsb'_toNat, natWord, BitVec.toNat_ofNat, Nat.shiftRight_eq_div_pow, hpow,
    Nat.mod_mul_right_div_self, Nat.mod_mod_of_dvd _ hdvd]

theorem natWord_field {n i k : Nat} {v : BitVec k} (h : i + k ≤ 32) (hv : n / 2 ^ i % 2 ^ k = v.toNat) :
    (natWord n).extractLsb' i k = v :=
  BitVec.eq_of_toNat_eq ((natWord_field_toNat n h).trans hv)

theorem natWord_bit {n i : Nat} {b : Bool} (h : i < 32) (hb : n / 2 ^ i % 2 = b.toNat) : (natWord n).getLsbD i = b := by
  rw [natWord, BitVec.getLsbD_ofNat, decide_eq_true h, Bool.true_and, Nat.testBit_eq_decide_div_mod_eq, hb]
  cases b <;> rfl

theorem natWord_bit_of_lt {n i j : Nat} (hn : n < 2 ^ j) (hj : j ≤ i) : (natWord n).getLsbD i = false := by
  rw [natWord, BitVec.getLsbD_ofNat, Nat.testBit_lt_two_pow (hn.trans_le (Nat.pow_le_pow_right (by omega) hj)), Bool.and_false]

/-! ### STATUS_GROUPS (R21) -/

theorem GroupState.toCode_le (st : GroupState) : st.toCode ≤ 5 := by cases st <;> decide

/-- A sum over the six groups, written out. -/
theorem foldl_allGroups (f : Group → Nat) (n : Nat) :
    allGroups.foldl (fun n g => n + f g) n = n + f 0 + f 1 + f 2 + f 3 + f 4 + f 5 := rfl

/-- Six digits of four bits below six digits of one bit: each digit read back, and nothing above them. -/
theorem groupDigits (c p : Group → Nat) (hc : ∀ g, c g ≤ 5) (hp : ∀ g, p g ≤ 1) (g : Group) :
    let n := allGroups.foldl (fun n g => n + (c g * 2 ^ (4 * g.val) + p g * 2 ^ (24 + g.val))) 0
    n / 2 ^ (4 * g.val) % 2 ^ 4 = c g ∧ n / 2 ^ (24 + g.val) % 2 = p g ∧ n < 2 ^ 30 := by
  rw [foldl_allGroups]
  have := hc 0; have := hc 1; have := hc 2; have := hc 3; have := hc 4; have := hc 5
  have := hp 0; have := hp 1; have := hp 2; have := hp 3; have := hp 4; have := hp 5
  fin_cases g <;> simp <;> omega

/-- R21: the fields of STATUS_GROUPS. -/
theorem State.statusGroups_fields (s : State) (g : Group) :
    (s.statusGroups.extractLsb' (4 * g.val) 4).toNat = (s.groupState g).toCode ∧
    s.statusGroups.getLsbD (24 + g.val) = (s.pages.entry g).pendingPage.isSome ∧
    ∀ i, 30 ≤ i → s.statusGroups.getLsbD i = false := by
  obtain ⟨hcode, hpend, htop⟩ := groupDigits (fun g => (s.groupState g).toCode)
    (fun g => (s.pages.entry g).pendingPage.isSome.toNat) (fun g => (s.groupState g).toCode_le) (fun g => Bool.toNat_le _) g
  have hg := g.isLt
  simp only [State.statusGroups, bitAt_eq, Nat.add_assoc]
  exact ⟨(natWord_field_toNat _ (by omega)).trans hcode, natWord_bit (by omega) hpend, fun i => natWord_bit_of_lt htop⟩

/-! ### STATUS_FLAGS (R22) -/

/-- R22: the fields of STATUS_FLAGS. The count of records, at most 32, lies below bit 6. -/
theorem State.statusFlags_fields (s : State) (h : s.captures.queue.length ≤ 32) :
    (s.statusFlags.extractLsb' 0 6).toNat = s.captures.queue.length ∧
    s.statusFlags.getLsbD 6 = s.captures.lost ∧
    s.statusFlags.getLsbD 7 = s.captures.capwm ∧
    s.statusFlags.getLsbD 8 = s.watch.originating ∧
    s.statusFlags.getLsbD 9 = s.service.svcDrop ∧
    (∀ g : Group, s.statusFlags.getLsbD (10 + g.val) = (s.pages.entry g).overridden) ∧
    (∀ i : Nat, 16 ≤ i → s.statusFlags.getLsbD i = false) := by
  have hlost := s.captures.lost.toNat_le
  have hwm := s.captures.capwm.toNat_le
  have horig := s.watch.originating.toNat_le
  have hdrop := s.service.svcDrop.toNat_le
  have hover : ∀ g : Group, (s.pages.entry g).overridden.toNat ≤ 1 := fun g => Bool.toNat_le _
  have := hover 0; have := hover 1; have := hover 2; have := hover 3; have := hover 4; have := hover 5
  simp only [State.statusFlags, bitAt_eq, foldl_allGroups]
  refine ⟨(natWord_field_toNat _ (by omega)).trans ?_, natWord_bit (by omega) ?_, natWord_bit (by omega) ?_,
    natWord_bit (by omega) ?_, natWord_bit (by omega) ?_, fun g => natWord_bit (by omega) ?_,
    fun i => natWord_bit_of_lt (j := 16) ?_⟩
  case refine_6 => fin_cases g <;> simp <;> omega
  all_goals simp; omega

/-! ### NOTICE and NOTICE_SEQ (R23) -/

theorem Source.number_le (src : Source) : src.number ≤ 383 := by
  cases src <;> simp only [Source.number, numberOf] <;> omega

theorem Action.toCode_le (act : Action) : act.toCode ≤ 2 := by cases act <;> decide

theorem AlarmTable.mem_of_presented {t : AlarmTable} {e : Entry} (h : t.presented = some e) : e ∈ t.entries :=
  AlarmTable.mem_order.mp (List.mem_of_find?_eq_some h)

theorem State.noticeWord_of_none {s : State} (h : s.alarm.presented = none) :
    s.noticeWord = natWord (511 + s.alarm.entries.length * 2 ^ 16) := by simp only [State.noticeWord, h]

theorem State.noticeWord_of_some {s : State} {e : Entry} (h : s.alarm.presented = some e) :
    s.noticeWord = natWord (e.source.number + e.level * 2 ^ 9 + e.action.toCode * 2 ^ 12 +
      s.alarm.entries.length * 2 ^ 16) := by
  simp only [State.noticeWord, h]

theorem State.noticeSeqWord_of_none {s : State} (h : s.alarm.presented = none) : s.noticeSeqWord = 0 := by
  simp only [State.noticeSeqWord, h]

theorem State.noticeSeqWord_of_some {s : State} {e : Entry} (h : s.alarm.presented = some e) :
    s.noticeSeqWord = natWord (e.seq.toNat + e.sweep.toNat * 2 ^ 16) := by simp only [State.noticeSeqWord, h]

/-- The number of NOTICE: a source number, a level and an action that stand below the count of entries, with the two bits
between them and those above it 0. -/
theorem noticeNumber_fields {num level act count : Nat} (hn : num ≤ 511) (hl : level ≤ 7) (ha : act ≤ 2)
    (hc : count ≤ 357) :
    let w := natWord (num + level * 2 ^ 9 + act * 2 ^ 12 + count * 2 ^ 16)
    (w.extractLsb' 0 9).toNat = num ∧ (w.extractLsb' 9 3).toNat = level ∧ (w.extractLsb' 12 2).toNat = act ∧
    w.extractLsb' 14 2 = 0 ∧ (w.extractLsb' 16 9).toNat = count ∧ w.extractLsb' 25 7 = 0 := by
  refine ⟨(natWord_field_toNat _ (by omega)).trans ?_, (natWord_field_toNat _ (by omega)).trans ?_,
    (natWord_field_toNat _ (by omega)).trans ?_, natWord_field (by omega) ?_, (natWord_field_toNat _ (by omega)).trans ?_,
    natWord_field (by omega) ?_⟩
  all_goals simp; omega

/-- R23: NOTICE and NOTICE_SEQ while no notice is presented. -/
theorem State.notice_fields_of_none {s : State} (hc : s.alarm.entries.length ≤ 357) (h : s.alarm.presented = none) :
    (s.noticeWord.extractLsb' 0 9).toNat = 511 ∧ s.noticeWord.extractLsb' 9 3 = 0 ∧ s.noticeWord.extractLsb' 12 2 = 0 ∧
    s.noticeWord.extractLsb' 14 2 = 0 ∧ (s.noticeWord.extractLsb' 16 9).toNat = s.alarm.entries.length ∧
    s.noticeWord.extractLsb' 25 7 = 0 := by
  obtain ⟨hnum, hlevel, hact, hgap, hcount, htop⟩ := noticeNumber_fields (le_refl 511) (Nat.zero_le 7) (Nat.zero_le 2) hc
  simp only [Nat.zero_mul, Nat.add_zero] at hnum hlevel hact hgap hcount htop
  rw [State.noticeWord_of_none h]
  exact ⟨hnum, BitVec.eq_of_toNat_eq hlevel, BitVec.eq_of_toNat_eq hact, hgap, hcount, htop⟩

/-- R23: NOTICE while a notice is presented. -/
theorem State.notice_fields_of_some {s : State} {e : Entry} (hc : s.alarm.entries.length ≤ 357) (hl : e.level ≤ 7)
    (h : s.alarm.presented = some e) :
    (s.noticeWord.extractLsb' 0 9).toNat = e.source.number ∧ (s.noticeWord.extractLsb' 9 3).toNat = e.level ∧
    (s.noticeWord.extractLsb' 12 2).toNat = e.action.toCode ∧ s.noticeWord.extractLsb' 14 2 = 0 ∧
    (s.noticeWord.extractLsb' 16 9).toNat = s.alarm.entries.length ∧ s.noticeWord.extractLsb' 25 7 = 0 := by
  rw [State.noticeWord_of_some h]
  exact noticeNumber_fields (e.source.number_le.trans (by omega)) hl e.action.toCode_le hc

/-- R23: NOTICE_SEQ while a notice is presented. -/
theorem State.noticeSeq_fields {s : State} {e : Entry} (h : s.alarm.presented = some e) :
    s.noticeSeqWord.extractLsb' 0 16 = e.seq ∧ s.noticeSeqWord.extractLsb' 16 16 = e.sweep := by
  have hseq := e.seq.isLt
  have hsweep := e.sweep.isLt
  rw [State.noticeSeqWord_of_some h]
  constructor <;> exact natWord_field (by omega) (by omega)

/-! ### The status writer (R20) -/

/-- In a well-formed map a slot number is bound to one role. -/
theorem role_eq_of_slotOf? {map : List Binding} (h : mapWf map) {r q : Role} {n : Half} (hr : slotOf? map r = some n)
    (hq : slotOf? map q = some n) : r = q := by
  simp only [slotOf?, Option.map_eq_some_iff] at hr hq
  obtain ⟨b, hb, rfl⟩ := hr
  obtain ⟨c, hc, hslot⟩ := hq
  have hbr : b.role = r := by simpa using List.find?_some hb
  have hcq : c.role = q := by simpa using List.find?_some hc
  have hnd : (map.map (·.slot)).Nodup := List.pairwise_map.mpr (h.1.imp fun hlt e => Nat.ne_of_lt hlt (congrArg _ e))
  rw [← hbr, ← hcq, List.inj_on_of_nodup_map hnd (List.mem_of_find?_eq_some hb) (List.mem_of_find?_eq_some hc) hslot.symm]

/-- Where `present?` finds a number is settled by the slots' numbers alone. -/
theorem findIdx?_number (slots : List Slot) (n : Half) :
    slots.findIdx? (fun sl => sl.number == n) = (slots.map (·.number)).findIdx? (· == n) := by
  rw [List.findIdx?_map]; rfl

theorem map_number_putSlot {slots : List Slot} {i : Nat} {sl new : Slot} (h : slots[i]? = some sl)
    (hn : new.number = sl.number) : (putSlot slots i new).map (·.number) = slots.map (·.number) := by
  obtain ⟨hi, rfl⟩ := List.getElem?_eq_some_iff.mp h
  rw [putSlot, List.map_set, hn, ← List.getElem_map (fun sl : Slot => sl.number) (h := by simpa using hi),
    List.set_getElem_self]

/-- A slot rewritten under its number leaves the presence of every role that is bound to another number. -/
theorem present?_putSlot {crack : Vector CrackChannel 64} {map : List Binding} {slots : List Slot} {q : Role} {i : Nat}
    {sl new : Slot} (h : slots[i]? = some sl) (hn : new.number = sl.number) (hq : slotOf? map q ≠ some sl.number) :
    present? crack map (putSlot slots i new) q = present? crack map slots q := by
  unfold present?
  cases hslot : slotOf? map q with
  | none => rfl
  | some n =>
    simp only [findIdx?_number, map_number_putSlot h hn]
    cases hj : (slots.map (·.number)).findIdx? (· == n) with
    | none => rfl
    | some j =>
      have hne : i ≠ j := by
        rintro rfl
        obtain ⟨hlt, hnum, -⟩ := List.findIdx?_eq_some_iff_getElem.mp hj
        obtain ⟨hi, rfl⟩ := List.getElem?_eq_some_iff.mp h
        exact hq (by rw [hslot]; simpa using (eq_of_beq hnum).symm)
      simp only [putSlot, List.getElem?_set_ne hne]

/-- R20: what a status slot is rewritten to. -/
def Slot.asStatus (sl : Slot) (value : Word) : Slot := sl.rewrite kindStatus .good value

theorem State.writeStatus_of_none {s : State} {map : List Binding} {slots : List Slot} {r : Role} (value : Word)
    (h : present? s.crack map slots r = none) : s.writeStatus map slots r value = slots := by
  simp only [State.writeStatus, h]

theorem State.writeStatus_of_some {s : State} {map : List Binding} {slots : List Slot} {r : Role} {i : Nat} {sl : Slot}
    (value : Word) (h : present? s.crack map slots r = some (i, sl)) :
    s.writeStatus map slots r value = putSlot slots i (sl.asStatus value) := by
  simp only [State.writeStatus, h, Slot.asStatus]

@[simp] theorem State.writeStatus_length (s : State) (map : List Binding) (slots : List Slot) (r : Role) (value : Word) :
    (s.writeStatus map slots r value).length = slots.length := by
  unfold State.writeStatus
  split <;> simp

/-- The writing of one role leaves the presence of every other. -/
theorem State.present?_writeStatus {s : State} {map : List Binding} (hmap : mapWf map) (slots : List Slot) {r q : Role}
    (value : Word) (hne : q ≠ r) :
    present? s.crack map (s.writeStatus map slots r value) q = present? s.crack map slots q := by
  cases h : present? s.crack map slots r with
  | none => rw [State.writeStatus_of_none value h]
  | some p =>
    obtain ⟨hget, hslot, -⟩ := present?_some h
    rw [State.writeStatus_of_some value h]
    exact present?_putSlot hget rfl (fun hq => hne (role_eq_of_slotOf? hmap hq hslot))

/-- R20: the status roles with their words, in the order in which the status writer takes them. -/
def State.statusWords (s : State) : List (Role × Word) :=
  [(.statusGroups, s.statusGroups), (.statusFlags, s.statusFlags), (.notice, s.noticeWord), (.noticeSeq, s.noticeSeqWord)]

/-- Roles written one after the other, each with its word. -/
def State.writeAll (s : State) (map : List Binding) (words : List (Role × Word)) (slots : List Slot) : List Slot :=
  words.foldl (fun slots rv => s.writeStatus map slots rv.1 rv.2) slots

theorem State.statusWriter_slots (s : State) (map : List Binding) (sw : Sweep) :
    (s.statusWriter map sw).slots = s.writeAll map s.statusWords sw.slots := rfl

theorem State.writeAll_length (s : State) (map : List Binding) (words : List (Role × Word)) (slots : List Slot) :
    (s.writeAll map words slots).length = slots.length := by
  induction words generalizing slots with
  | nil => rfl
  | cons rv rest ih => exact (ih _).trans (s.writeStatus_length map slots rv.1 rv.2)

theorem ne_of_mem_roles {r : Role} {words : List (Role × Word)} (h : r ∉ words.map (·.1)) {qv : Role × Word}
    (hq : qv ∈ words) : qv.1 ≠ r := fun e => h (List.mem_map.mpr ⟨qv, hq, e⟩)

/-- A place that holds none of the roles keeps its slot. -/
theorem State.writeAll_other {s : State} {map : List Binding} (hmap : mapWf map) {words : List (Role × Word)}
    (hnd : (words.map (·.1)).Nodup) {slots : List Slot} {i : Nat}
    (h : ∀ rv ∈ words, ∀ sl, present? s.crack map slots rv.1 ≠ some (i, sl)) :
    (s.writeAll map words slots)[i]? = slots[i]? := by
  induction words generalizing slots with
  | nil => rfl
  | cons rv rest ih =>
    obtain ⟨hnot, hrest⟩ := List.nodup_cons.mp hnd
    have htail : (s.writeAll map rest (s.writeStatus map slots rv.1 rv.2))[i]? = (s.writeStatus map slots rv.1 rv.2)[i]? := by
      refine ih hrest fun qv hq sl => ?_
      rw [State.present?_writeStatus hmap slots rv.2 (ne_of_mem_roles hnot hq)]
      exact h qv (List.mem_cons_of_mem _ hq) sl
    refine htail.trans ?_
    cases hp : present? s.crack map slots rv.1 with
    | none => rw [State.writeStatus_of_none rv.2 hp]
    | some p =>
      have hne : p.1 ≠ i := fun e => h rv List.mem_cons_self p.2 (by rw [hp, ← e])
      rw [State.writeStatus_of_some rv.2 hp, putSlot, List.getElem?_set_ne hne]

/-- Two roles that are present stand at different places. -/
theorem present?_place_ne {crack : Vector CrackChannel 64} {map : List Binding} (hmap : mapWf map) {slots : List Slot}
    {r q : Role} {i : Nat} {sl sm : Slot} (hne : q ≠ r) (hr : present? crack map slots r = some (i, sl)) :
    present? crack map slots q ≠ some (i, sm) := by
  intro hq
  obtain ⟨hget, hslot, -⟩ := present?_some hr
  obtain ⟨hget', hslot', -⟩ := present?_some hq
  obtain rfl : sl = sm := Option.some.inj (hget.symm.trans hget')
  exact hne (role_eq_of_slotOf? hmap hslot' hslot)

/-- A role that is present has its word written into its slot, and the roles written after it leave it there. -/
theorem State.writeAll_present {s : State} {map : List Binding} (hmap : mapWf map) {words : List (Role × Word)}
    (hnd : (words.map (·.1)).Nodup) {slots : List Slot} {r : Role} {v : Word} (hmem : (r, v) ∈ words) {i : Nat} {sl : Slot}
    (h : present? s.crack map slots r = some (i, sl)) :
    (s.writeAll map words slots)[i]? = some (sl.asStatus v) := by
  induction words generalizing slots with
  | nil => cases hmem
  | cons rv rest ih =>
    obtain ⟨hnot, hrest⟩ := List.nodup_cons.mp hnd
    have hother : ∀ qv ∈ rest, qv.1 ≠ rv.1 := fun qv hq => ne_of_mem_roles hnot hq
    rcases List.mem_cons.mp hmem with rfl | hin
    · have hkept : (s.writeAll map rest (s.writeStatus map slots r v))[i]? = (s.writeStatus map slots r v)[i]? := by
        refine State.writeAll_other hmap hrest fun qv hq sm => ?_
        rw [State.present?_writeStatus hmap slots v (hother qv hq)]
        exact present?_place_ne hmap (hother qv hq) h
      obtain ⟨hi, -⟩ := List.getElem?_eq_some_iff.mp (present?_some h).1
      refine hkept.trans ?_
      rw [State.writeStatus_of_some v h, putSlot, List.getElem?_set_self hi]
    · exact ih hrest hin ((State.present?_writeStatus hmap slots rv.2 (hother _ hin)).trans h)

/-! ### A return sweep taken through all blocks (R6) -/

/-- A block reads nothing of the sweep in hand but what it is given. -/
theorem State.beginBlock_inReturn (s : State) (h : Hand) (sw : Sweep) (map : List Binding) (b : ReturnBlock) :
    (s.inReturn h).beginBlock sw map b = s.beginBlock sw map b := by
  cases b <;> rfl

/-- The raises still owed are handed over, and the next block begins. -/
theorem State.returnStep_inReturn (s : State) (sw : Sweep) (map : List Binding) (b : ReturnBlock) (owed : List Raise) :
    (s.inReturn (.processing sw map b owed)).returnStep .statusWriter = (s.raisedAll owed).beginBlock sw map b := by
  have hin : (s.inReturn (.processing sw map b owed)).retLane.hand = some (.processing sw map b owed) := rfl
  have hplace : blockPlace b ≤ blockPlace .statusWriter := by cases b <;> decide
  have hraised : (s.inReturn (.processing sw map b owed)).raisedAll owed =
      (s.raisedAll owed).inReturn (.processing sw map b owed) := State.raisedAll_onReturn owed s _
  have hstep : (s.inReturn (.processing sw map b owed)).returnStep .statusWriter =
      (s.inReturn (.processing sw map b owed)).finishBlock.beginBlock sw map b := if_pos hplace
  rw [hstep, State.finishBlock_processing hin, hraised, State.beginBlock_inReturn, State.beginBlock_inReturn]

/-- R6: each block before the status writer, with its raises handed over, hands the sweep to the next. -/
theorem State.returnStep_beginBlock (s : State) (sw : Sweep) (map : List Binding) :
    (s.beginBlock sw map .feedbackIntake).returnStep .statusWriter =
      (s.feedbackIntake map sw).beginBlock sw map .strainBlock ∧
    (s.beginBlock sw map .strainBlock).returnStep .statusWriter =
      (s.strainBlock map sw).1.beginBlock (s.strainBlock map sw).2 map .crackWatch ∧
    (s.beginBlock sw map .crackWatch).returnStep .statusWriter = (s.crackWatch map sw).beginBlock sw map .statusWriter :=
  ⟨State.returnStep_inReturn _ _ _ _ _, State.returnStep_inReturn _ _ _ _ _, State.returnStep_inReturn _ _ _ _ _⟩

/-- R6: the state and the sweep as the feedback intake, the strain block and the crack watch leave them. -/
def State.blocksDone (s : State) (map : List Binding) (sw : Sweep) : State × Sweep :=
  let judged := (s.feedbackIntake map sw).strainBlock map sw
  (judged.1.crackWatch map judged.2, judged.2)

/-- A sweep that the return lane has just taken comes to the status writer in four steps. -/
theorem State.returnStep_four (s : State) (sw : Sweep) (map : List Binding) :
    ((((s.inReturn (.processing sw map .feedbackIntake [])).returnStep .statusWriter).returnStep .statusWriter).returnStep
      .statusWriter).returnStep .statusWriter =
        (s.blocksDone map sw).1.beginBlock (s.blocksDone map sw).2 map .statusWriter := by
  have hnone : s.raisedAll [] = s := rfl
  rw [State.returnStep_inReturn, hnone, (State.returnStep_beginBlock s sw map).1,
    (State.returnStep_beginBlock _ sw map).2.1, (State.returnStep_beginBlock _ _ map).2.2]
  rfl

/-- The blocks before the status writer read and change nothing of the return lane. -/
theorem State.blocksDone_onReturn (s : State) (f : Lane → Lane) (map : List Binding) (sw : Sweep) :
    (s.onLane .ret f).blocksDone map sw = ((s.blocksDone map sw).1.onLane .ret f, (s.blocksDone map sw).2) := by
  have hfeed (s : State) : (s.onLane .ret f).feedbackIntake map sw = (s.feedbackIntake map sw).onLane .ret f :=
    State.raisedAll_onReturn _ (s.feedbackNoted _) f
  have hstrain (s : State) : (s.onLane .ret f).strainBlock map sw =
      ((s.strainBlock map sw).1.onLane .ret f, (s.strainBlock map sw).2) :=
    Prod.ext (State.raisedAll_onReturn _ (s.strainJudged _) f) rfl
  have hcrack (s : State) (sw : Sweep) : (s.onLane .ret f).crackWatch map sw = (s.crackWatch map sw).onLane .ret f :=
    State.raisedAll_onReturn _ (s.crackEvaluated _) f
  simp only [State.blocksDone, hfeed, hstrain, hcrack]

theorem State.blocksDone_service (s : State) (map : List Binding) (sw : Sweep) :
    (s.blocksDone map sw).1.service = s.service := by
  have hfeed (s : State) : (s.feedbackIntake map sw).service = s.service := State.raisedAll_service (s.feedbackNoted _) _
  have hstrain (s : State) : (s.strainBlock map sw).1.service = s.service := State.raisedAll_service (s.strainJudged _) _
  have hcrack (s : State) (sw : Sweep) : (s.crackWatch map sw).service = s.service :=
    State.raisedAll_service (s.crackEvaluated _) _
  simp only [State.blocksDone, hcrack, hstrain, hfeed]

/-- R7, R20: with RET-OUT free the status writer's sweep goes at once into sending. -/
theorem State.beginBlock_statusWriter {s : State} (f : Lane → Lane) (map : List Binding) (sw : Sweep)
    (h : s.service.replySending = false) :
    (s.onLane .ret f).beginBlock sw map .statusWriter =
      (s.onLane .ret f).inReturn (.sending (sweepBytes (s.statusWriter map sw))) := by
  have hbegin : (s.onLane .ret f).beginBlock sw map .statusWriter =
      ((s.onLane .ret f).inReturn (.ready (sweepBytes (s.statusWriter map sw)))).startPort .ret := rfl
  rw [hbegin, State.startPort, if_neg (by simp [State.inReturn, State.onLane_ret, Lane.isSending, h])]
  rfl

/-- R6, R20: the sweep at the head of the return lane, taken through the four blocks with RET-OUT free, is in sending as the
status writer leaves it, and beyond the lane the state stands as the crack watch has left it. -/
theorem State.returnSweep_through {s : State} {w : Waiting} {rest : List Waiting} (hhand : s.retLane.hand = none)
    (hwait : s.retLane.waiting = w :: rest) (hby : w.bypassed = false) (hkind : frameKind w.bytes = 0xA1)
    (hport : s.service.replySending = false) {watched : State} {sw : Sweep}
    (hdone : s.blocksDone w.map (readSweep w.bytes) = (watched, sw)) :
    s.returnSweep ⟨.statusWriter, none⟩ =
      (watched.onLane .ret Lane.dropHead).inReturn (.sending (sweepBytes (watched.statusWriter w.map sw))) := by
  have htake : s.takeReturn =
      (s.onLane .ret Lane.dropHead).inReturn (.processing (readSweep w.bytes) w.map .feedbackIntake []) := by
    have hnext : s.retLane.next? = some w := Lane.next?_eq_some.mpr ⟨hhand, by rw [hwait]; rfl, hby⟩
    have hsweep : isSweep w.bytes = true := by rw [isSweep, hkind]; rfl
    simp only [State.takeReturn, hnext, hsweep, if_true]
  have hfree : watched.service.replySending = false := by
    rw [← hport, ← State.blocksDone_service s w.map (readSweep w.bytes), hdone]
  have hover : ∀ (t : State) (bytes : List Byte) (through : ReturnReach),
      (t.inReturn (.sending bytes)).handOver through = t.inReturn (.sending bytes) := fun _ _ _ => rfl
  rw [State.returnSweep, htake, State.returnStep_four, State.blocksDone_onReturn, hdone,
    State.beginBlock_statusWriter _ _ _ hfree, hover]

/-- The status words show nothing of the return lane. -/
theorem State.statusWords_onReturn (s : State) (f : Lane → Lane) :
    (s.onLane .ret f).statusGroups = s.statusGroups ∧ (s.onLane .ret f).statusFlags = s.statusFlags ∧
    (s.onLane .ret f).noticeWord = s.noticeWord ∧ (s.onLane .ret f).noticeSeqWord = s.noticeSeqWord :=
  ⟨rfl, rfl, rfl, rfl⟩

end Sys2Proof.Machine

namespace Sys2Proof
open Sys2Proof.Machine

/-- Settles O39: each word by its fields, the status writer by its pass over the four roles, and the return sweep by its course
through the blocks, of which the words see everything but the lane. -/
theorem statusGroupsFields : Obligations.StatusGroupsFields := by
  unfold Obligations.StatusGroupsFields
  refine ⟨fun s g => ?_, fun s hlog => ?_, fun s htable hlevels => ?_, fun s map sw hmap => ?_,
    fun s w rest hhand hwait hby hkind hport => ?_⟩
  · obtain ⟨hcode, hpend, htop⟩ := s.statusGroups_fields g
    refine ⟨hcode.trans ?_, ?_, htop 30 le_rfl, htop 31 (by omega)⟩
    · cases s.groupState g <;> rfl
    · rw [hpend, Option.isSome_iff_ne_none]
  · obtain ⟨hcount, hlost, hwm, hrest⟩ := s.statusFlags_fields hlog
    exact ⟨hcount, hlost, by rw [hwm, CaptureLog.capwm, decide_eq_true_iff], hrest⟩
  · intro word seq
    cases h : s.alarm.presented with
    | none =>
      obtain ⟨hnum, hlevel, hact, hgap, hcount, htop⟩ := State.notice_fields_of_none htable h
      exact ⟨hcount, hgap, htop, fun _ => ⟨hnum, hlevel, hact, State.noticeSeqWord_of_none h⟩,
        fun e he => (Option.some_ne_none e he.symm).elim⟩
    | some e =>
      obtain ⟨hnum, hlevel, hact, hgap, hcount, htop⟩ :=
        State.notice_fields_of_some htable (hlevels e (AlarmTable.mem_of_presented h)) h
      refine ⟨hcount, hgap, htop, fun hn => (Option.some_ne_none e hn).elim, fun f hf => ?_⟩
      cases hf
      refine ⟨hnum, hlevel, hact.trans ?_, State.noticeSeq_fields h⟩
      cases e.action <;> rfl
  · intro word out
    have hnd : (s.statusWords.map (·.1)).Nodup :=
      (by decide : [Role.statusGroups, .statusFlags, .notice, .noticeSeq].Nodup)
    have hword : ∀ (r : Role) (v : Word), word r = some v ↔ (r, v) ∈ s.statusWords := by
      intro r v
      cases r <;> simp [word, State.statusWords, eq_comm]
    refine ⟨rfl, s.writeAll_length map s.statusWords sw.slots, fun r v i sl hr hp => ?_, fun i hnone => ?_⟩
    · exact State.writeAll_present hmap hnd ((hword r v).mp hr) hp
    · exact State.writeAll_other hmap hnd fun rv hrv sl => hnone rv.1 rv.2 sl ((hword rv.1 rv.2).mpr hrv)
  · intro sw judged watched
    have hsent := State.returnSweep_through hhand hwait hby hkind hport (watched := watched) (sw := judged.2) rfl
    refine ⟨_, congrArg Host.Outcome.next hsent, rfl, ?_⟩
    rw [State.inReturn, State.onLane_onLane]
    exact watched.statusWords_onReturn _

end Sys2Proof
end

section
/-! PROOF. Stage 1 of the shaper, case by case (R30, R31), and the waveform value by its five steps with its bounds (R38). -/

namespace Sys2Proof.Machine

open Sys2Proof

/-! ### The phase advance and its crossings (R30) -/

/-- R30: a phase step in its range takes the phase past 65,536 once at most. -/
theorem advancePhase_toNat (theta : Half) {step : Nat} (h : step ≤ 16384) :
    (advancePhase theta step).toNat =
      if 65536 ≤ theta.toNat + step then theta.toNat + step - 65536 else theta.toNat + step := by
  have hlt := theta.isLt
  rw [advancePhase, BitVec.toNat_add, BitVec.toNat_ofNat]
  split <;> omega

theorem crossingOf_valley (theta : Half) (step : Nat) :
    (crossingOf theta step).valley = true ↔ 65536 ≤ theta.toNat + step := decide_eq_true_iff

theorem crossingOf_peak (theta : Half) (step : Nat) :
    (crossingOf theta step).peak = true ↔ theta.toNat < 32768 ∧ 32768 ≤ theta.toNat + step := by
  simp only [crossingOf, Bool.and_eq_true, decide_eq_true_iff]

/-- A valley is reached from 49,152 or above, a peak from below 32,768. -/
theorem crossingOf_not_both (theta : Half) {step : Nat} (h : step ≤ 16384) :
    ¬((crossingOf theta step).valley = true ∧ (crossingOf theta step).peak = true) := by
  rw [crossingOf_valley, crossingOf_peak]
  omega

/-! ### Stage 1 by its cases (R30, R31) -/

theorem Shaping.stage1_of_not_cycling {x : Shaping} {g : Group} (hc : x.cycling.entry g = false) : x.stage1 g = x := by
  unfold Shaping.stage1
  split <;> rw [hc] <;> rfl

/-- R30: a group that is its own phase source. -/
theorem Shaping.stage1_of_own {x : Shaping} {g : Group} (hlead : x.state.lead g = none) (hc : x.cycling.entry g = true) :
    x.stage1 g = { x with
      state := x.state.onShape g (fun y =>
        { y with theta := advancePhase (x.state.shape g).theta (x.state.activePage g).step })
      crossings := x.crossings.alter g (fun _ =>
        crossingOf (x.state.shape g).theta (x.state.activePage g).step) } := by
  simp only [Shaping.stage1, hlead, hc, if_true]

/-- R31: a group that names a lead. -/
theorem Shaping.stage1_of_lead {x : Shaping} {g lead : Group} (hlead : x.state.lead g = some lead)
    (hc : x.cycling.entry g = true) :
    x.stage1 g = { x with crossings := x.crossings.alter g (fun _ => x.crossings.entry lead) } := by
  simp only [Shaping.stage1, hlead, hc, if_true]

/-- R26: a sweep is taken with no crossing. -/
theorem State.takeSweep_crossings (s : State) (sw : Sweep) (g : Group) :
    (s.takeSweep sw).crossings.entry g = Crossing.none := Vector.entry_fill _ _

/-! ### The waveform by its steps (R38) -/

/-- R38, step 1: the entry phase. -/
theorem entryPhase_toNat (theta offset : Half) :
    (theta + offset).toNat =
      if 65536 ≤ theta.toNat + offset.toNat then theta.toNat + offset.toNat - 65536 else theta.toNat + offset.toNat := by
  have htheta := theta.isLt
  have hoffset := offset.isLt
  rw [BitVec.toNat_add]
  split <;> omega

/-- R38, step 3: the table position after `i`, where entry 0 follows entry 255. -/
theorem tableNext_eq {i : Nat} (h : i < 256) : (⟨i, h⟩ : Fin 256) + 1 = Fin.ofNat 256 (if i = 255 then 0 else i + 1) := by
  apply Fin.ext
  simp only [Fin.val_add, Fin.val_one, Fin.val_ofNat]
  split <;> omega

/-- R38, steps 2 to 4, with the positions as numbers and the floor toward minus infinity. -/
theorem shapeValue_eq (table : Vector Int 256) (phi : Half) :
    let shape := fun n : Nat => table.entry (Fin.ofNat 256 n)
    let i := phi.toNat / 256
    let f := phi.toNat - 256 * i
    let j := if i = 255 then 0 else i + 1
    shapeValue table phi = shape i + Int.fdiv ((shape j - shape i) * f) 256 := by
  intro shape i f j
  have hi : i < 256 := by have := phi.isLt; omega
  have hf : phi.toNat % 256 = f := by omega
  have hpos : (⟨i, hi⟩ : Fin 256) = Fin.ofNat 256 i := Fin.ext (Nat.mod_eq_of_lt hi).symm
  have hfloor : ∀ n : Int, n / 256 = Int.fdiv n 256 := fun n => (Int.fdiv_eq_ediv_of_nonneg n (by decide)).symm
  calc shapeValue table phi
      = table.entry ⟨i, hi⟩ + (table.entry (⟨i, hi⟩ + 1) - table.entry ⟨i, hi⟩) * (phi.toNat % 256 : Nat) / 256 := rfl
    _ = shape i + Int.fdiv ((shape j - shape i) * f) 256 := by rw [tableNext_eq hi, hpos, hf, hfloor]

/-- A value taken between two table entries, at a fraction of 256, lies between them. -/
theorem interpolated_between (a b : Int) {f : Nat} (hf : f ≤ 256) :
    min a b ≤ a + Int.fdiv ((b - a) * f) 256 ∧ a + Int.fdiv ((b - a) * f) 256 ≤ max a b := by
  rw [Int.fdiv_eq_ediv_of_nonneg _ (by decide)]
  have hf' : (f : Int) ≤ 256 := by exact_mod_cast hf
  rcases le_total a b with h | h
  · have hlow : 0 ≤ (b - a) * f := mul_nonneg (by omega) (by omega)
    have hhigh : (b - a) * f ≤ (b - a) * 256 := mul_le_mul_of_nonneg_left hf' (by omega)
    omega
  · have hlow : (b - a) * 256 ≤ (b - a) * f := mul_le_mul_of_nonpos_left hf' (by omega)
    have hhigh : (b - a) * f ≤ 0 := mul_nonpos_of_nonpos_of_nonneg (by omega) (by omega)
    omega

/-- R38, step 5: 32,767 is odd, so that the rounded quotient is nearer to the exact one than one half. -/
theorem roundDiv_nearest (n : Int) : 2 * (n - 32767 * roundDiv n 32767).natAbs < 32767 := by
  have h := (roundDiv_spec n (d := 32767) (by decide)).1
  omega

/-- An amplitude times a shape value within 32,767, rounded by 32,767, is within the amplitude. -/
theorem roundDiv_within {amplitude : Nat} {s : Int} (hlow : -32767 ≤ s) (hhigh : s ≤ 32767) :
    -amplitude ≤ roundDiv (amplitude * s) 32767 ∧ roundDiv (amplitude * s) 32767 ≤ amplitude := by
  have h := roundDiv_nearest (amplitude * s)
  have hmin : (amplitude : Int) * -32767 ≤ amplitude * s := mul_le_mul_of_nonneg_left hlow (by omega)
  have hmax : (amplitude : Int) * s ≤ amplitude * 32767 := mul_le_mul_of_nonneg_left hhigh (by omega)
  omega

end Sys2Proof.Machine

namespace Sys2Proof
open Sys2Proof.Machine

/-- Settles O27, by the cases of stage 1: with a lead and without, cycling and not. -/
theorem phaseAdvances : Obligations.PhaseAdvances := by
  unfold Obligations.PhaseAdvances
  refine ⟨fun x g hlead hstep => ⟨Shaping.stage1_of_not_cycling, fun hc => ?_⟩, fun x g lead hlead => ?_,
    State.takeSweep_crossings⟩
  · rw [Shaping.stage1_of_own hlead hc]
    simp only [State.shape_onShape_same, Vector.entry_alter_same]
    refine ⟨advancePhase_toNat _ hstep, crossingOf_valley _ _, crossingOf_peak _ _, crossingOf_not_both _ hstep,
      fun h hne => ⟨?_, Vector.entry_alter_of_ne _ _ hne⟩⟩
    rw [State.shape_onShape, if_neg hne]
  · cases hc : x.cycling.entry g with
    | false =>
      rw [Shaping.stage1_of_not_cycling hc]
      exact ⟨rfl, rfl, fun _ _ => rfl⟩
    | true =>
      rw [Shaping.stage1_of_lead hlead hc]
      exact ⟨rfl, Vector.entry_alter_same _ _ _, fun _ hne => Vector.entry_alter_of_ne _ _ hne⟩

/-- Settles O28: the steps give the shape value between two entries of the table, and the rounding, never at a true half, keeps
it within the amplitude. -/
theorem waveformWithinAmplitude : Obligations.WaveformWithinAmplitude := by
  unfold Obligations.WaveformWithinAmplitude
  intro table e theta shape sum phi i f j s w
  have hphi : (theta + e.offset).toNat = phi := entryPhase_toNat theta e.offset
  have hs : shapeValue table (theta + e.offset) = s := by
    rw [shapeValue_eq]
    simp only [hphi]
    rfl
  have hw : w = e.mean + roundDiv (e.amplitude * s) 32767 := by rw [← hs]; rfl
  have hbetween : min (shape i) (shape j) ≤ s ∧ s ≤ max (shape i) (shape j) :=
    interpolated_between (shape i) (shape j) (f := f) (by omega)
  refine ⟨?_, fun n => by omega, hbetween.1, hbetween.2, fun htable => ?_⟩
  · rw [hw, add_sub_cancel_left]
    exact roundDiv_nearest _
  · have hi : -32767 ≤ shape i ∧ shape i ≤ 32767 := htable _
    have hj : -32767 ≤ shape j ∧ shape j ≤ 32767 := htable _
    have hlow : -32767 ≤ s := by omega
    have hhigh : s ≤ 32767 := by omega
    have hround := roundDiv_within (amplitude := e.amplitude) hlow hhigh
    refine ⟨hlow, hhigh, ?_, ?_, fun hmean hamp => ?_⟩ <;> omega

end Sys2Proof
end

section
/-! PROOF. CAPTURE (R148): its two checks, and the capture that it takes, with room in the log and without (R145 to R147). -/

namespace Sys2Proof.Machine

open Sys2Proof

/-! ### The two checks of a bare command (R148, R170, R172, R173) -/

theorem bareRefusal_of_index {index : Half} (h : index ≠ 0) (args : List Word) :
    bareRefusal index args = some .badIndex := if_pos h

theorem bareRefusal_of_args {args : List Word} (h : args ≠ []) : bareRefusal 0 args = some .badValue := if_pos h

theorem bareRefusal_bare : bareRefusal 0 [] = none := rfl

/-! ### The capture taken (R145 to R147) -/

/-- R145: the states, total counts and block pointers of a record, group by group. -/
theorem State.captureRecord_entries (s : State) (trigger : Trigger) (sweep : Half) (g : Group) :
    (s.captureRecord trigger sweep).states.entry g = s.groupState g ∧
    (s.captureRecord trigger sweep).totals.entry g = (s.cycles.entry g).total ∧
    (s.captureRecord trigger sweep).pointers.entry g = (s.cycles.entry g).pointer :=
  ⟨Vector.entry_alterAll _ _ _, Vector.entry_alterAll _ _ _, Vector.entry_alterAll _ _ _⟩

theorem State.captureFits_iff (s : State) : s.captureFits = true ↔ s.captures.queue.length < 32 := decide_eq_true_iff

/-- R147: a capture into a log with room. -/
theorem State.capture_of_room {s : State} (h : s.captures.queue.length < 32) (trigger : Trigger) (sweep : Half) :
    s.capture trigger sweep = { s with
      captures := { s.captures with
        queue := s.captures.queue ++ [s.captureRecord trigger sweep], nextSeq := s.captures.nextSeq + 1 }
      markers := s.markers.alterAll (fun _ m => if m.kind = .capture then { m with timer := some m.width } else m) } := by
  rcases s.capture_cases trigger sweep with ⟨-, e⟩ | ⟨hfull, -⟩
  · simpa only [beq_iff_eq] using e
  · exact absurd h (Nat.not_lt.2 hfull)

/-- R147: a capture into a full log. -/
theorem State.capture_of_full {s : State} (h : 32 ≤ s.captures.queue.length) (trigger : Trigger) (sweep : Half) :
    s.capture trigger sweep = { s with captures := { s.captures with lost := true } } := by
  rcases s.capture_cases trigger sweep with ⟨hroom, -⟩ | ⟨-, e⟩
  · exact absurd hroom (Nat.not_lt.2 h)
  · exact e

/-- A capture reads and changes nothing of the service handler. -/
theorem State.capture_onService (s : State) (f : ServiceHandler → ServiceHandler) (trigger : Trigger) (sweep : Half) :
    (s.onService f).capture trigger sweep = (s.capture trigger sweep).onService f := by
  rcases Nat.lt_or_ge s.captures.queue.length 32 with h | h
  · rw [State.capture_of_room h, State.capture_of_room (s := s.onService f) h]
    rfl
  · rw [State.capture_of_full h, State.capture_of_full (s := s.onService f) h]
    rfl

/-- R148: with room the word returned is the sequence number that the stored record takes. -/
theorem State.captureWord_of_room {s : State} (h : s.captures.queue.length < 32) :
    s.captureWord = s.captures.nextSeq.setWidth 32 := by
  rw [State.captureWord, if_pos (s.captureFits_iff.mpr h), natWord, BitVec.ofNat_toNat]

/-- R148: the word returned for a lost capture is no sequence number of 16 bits. -/
theorem State.captureWord_of_full {s : State} (h : 32 ≤ s.captures.queue.length) : s.captureWord = 65536 :=
  if_neg (fun hfits => Nat.not_lt.2 h (s.captureFits_iff.mp hfits))

/-! ### CAPTURE as an item (R148) -/

theorem captureBody_of_refusal {index : Half} {args : List Word} {code : ResultCode}
    (h : bareRefusal index args = some code) (s : State) : captureBody index args s = refuse s code := by
  simp only [captureBody, h]

theorem captureBody_bare (s : State) :
    captureBody 0 [] s = answerWords (s.capture .manual s.shaper.lastTaken) [s.captureWord] := rfl

theorem itemCapture_of_refusal {index : Half} {args : List Word} {code : ResultCode}
    (h : bareRefusal index args = some code) (s : State) :
    itemCapture index args s = s.answered 0x27 index code [] :=
  State.command_refused (captureBody_of_refusal h _)

/-- R148: a CAPTURE that passes its checks answers with its word from the state that the MANUAL capture leaves. -/
theorem itemCapture_bare (s : State) :
    itemCapture 0 [] s = (s.capture .manual s.shaper.lastTaken).answered 0x27 0 .ok [s.captureWord] := by
  have hquiet : (s.capture .manual s.shaper.lastTaken).service.quiet = s.service.quiet := by
    rw [State.capture_service]
  refine State.command_eq_answered ?_ hquiet
  rw [captureBody_bare, State.capture_onService]
  rfl

theorem exec_capture (index : Half) (args : List Word) (s : State) :
    exec (.capture index args) s = .next (itemCapture index args s.finishBlock) := rfl

end Sys2Proof.Machine

namespace Sys2Proof
open Sys2Proof.Machine

/-- Settles O57, by the two checks of CAPTURE and, past them, by whether the log has room. -/
theorem captureCommand : Obligations.CaptureCommand := by
  unfold Obligations.CaptureCommand
  intro before index args s
  refine ⟨fun hindex => ?_, fun hindex hargs => ?_, fun hindex hargs hroom => ?_, fun hindex hargs hfull => ?_⟩
  · rw [exec_capture, itemCapture_of_refusal (bareRefusal_of_index hindex args)]
  · subst hindex
    rw [exec_capture, itemCapture_of_refusal (bareRefusal_of_args hargs)]
  · subst hindex hargs
    refine ⟨s.captureRecord .manual s.shaper.lastTaken, rfl, rfl, rfl, s.captureRecord_entries _ _, rfl, rfl, ?_⟩
    rw [exec_capture, itemCapture_bare, State.capture_of_room hroom, State.captureWord_of_room hroom]
  · subst hindex hargs
    rw [exec_capture, itemCapture_bare, State.capture_of_full hfull, State.captureWord_of_full hfull]

end Sys2Proof
end

section
/-! PROOF. What a step can do, said once. `Touch` lists the changes that the work of the blocks makes: each is an update of one
part of the state, with the condition under which the rules allow it. `Change` adds the lanes, the reply queue, the reset unit
and the assertion of reset. Every command leads from its state to the next by such changes (`exec_changes`), so that a condition
which each of them keeps is kept by every step. -/

namespace Sys2Proof.Machine

open Sys2Proof

/-! ### The parts of the conditions of Safety.lean -/

/-- R25: an actuator that is unassigned, or whose group is OFF. -/
def State.idle (s : State) (a : Actuator) : Prop := ∀ g : Group, (s.actuator a).group = some g → s.groupState g = .off

/-- R25: an output that the shaper may keep for an actuator. -/
def State.outputFits (s : State) (a : Actuator) (o : ActuatorOutput) : Prop :=
  (s.idle a → o.kept = none ∧ o.hold = none) ∧ (¬s.idle a → o.kept.isSome = true)

/-- R72: leads one level deep. -/
def leadsShort (groups : Vector GroupLock 6) : Prop :=
  ∀ g h : Group, (groups.entry g).record.lead = some h → h ≠ g ∧ (groups.entry h).record.lead = none

/-- R97: compensation channels one level deep. -/
def compsShort (strain : Vector StrainChannel 256) : Prop :=
  ∀ (c d : Fin 256) (r : Calibration), (strain.entry c).cal = some r → r.comp = some d →
    d ≠ c ∧ ∀ q : Calibration, (strain.entry d).cal = some q → q.comp = none

/-- R74, R84, R90: the engage count of one group. -/
def GroupLock.engageOk (l : GroupLock) : Prop :=
  1 ≤ l.record.engageInterval ∧
    if l.state = .engaging then l.engageCount < l.record.engageInterval else l.engageCount = 0 ∧ l.reportDue = false

/-- R163: the room of the reply queue, with a reply in sending at its head. -/
def ServiceHandler.bounded (v : ServiceHandler) : Prop :=
  v.replies.length ≤ 4 ∧ (v.replySending = true → v.replies ≠ [])

theorem State.outputsFollow_iff (s : State) : s.outputsFollow ↔ ∀ a : Actuator, s.outputFits a (s.output a) := by
  refine forall_congr' fun a => ?_
  unfold State.outputFits State.idle
  cases (s.actuator a).group with
  | none => simp
  | some g => by_cases h : s.groupState g = .off <;> simp [h]

theorem State.noChains_iff (s : State) : s.NoChains ↔ leadsShort s.interlock.groups ∧ compsShort s.strain :=
  ⟨fun h => ⟨h.leads, h.compensations⟩, fun h => ⟨h.1, h.2⟩⟩

theorem State.engageSafe_iff (s : State) : s.engageSafe ↔ ∀ g : Group, (s.lock g).engageOk := Iff.rfl

theorem State.bounded_iff (s : State) : s.bounded ↔ s.outLane.bounded ∧ s.retLane.bounded ∧ s.service.bounded := Iff.rfl

/-! ### The changes -/

/-- A change that the work of a block makes. It leaves the queue, the lanes, the node address and the reply queue. -/
inductive Touch (s : State) : State → Prop
  /-- The reset cause record cleared (R173). -/
  | unit (u : ResetUnit) (haddress : u.nodeAddress = s.unit.nodeAddress) : Touch s { s with unit := u }
  /-- The qualifier state, the results, SVCDROP and the restart condition. -/
  | service (f : ServiceHandler → ServiceHandler) (hreplies : (f s.service).replies = s.service.replies)
      (hsending : (f s.service).replySending = s.service.replySending) : Touch s (s.onService f)
  | slotMap (map : List Binding) (hmap : mapWf s.slotMap → mapWf map) : Touch s { s with slotMap := map }
  /-- What the shaper keeps for the groups, and the number of the last sweep taken. -/
  | shapes (groups : Vector GroupShape 6) (n : Half) :
      Touch s { s with shaper := { s.shaper with groups := groups, lastTaken := n } }
  | outputs (acts : Vector ActuatorOutput 16)
      (hfits : ∀ a, s.outputFits a (s.output a) → s.outputFits a (acts.entry a)) :
      Touch s { s with shaper := { s.shaper with acts := acts } }
  | pages (ps : Vector GroupPages 6)
      (hcomplete : ∀ g, s.groupState g ≠ .off → s.complete g (s.pages.entry g).active = true →
        ({ s with pages := ps } : State).complete g (ps.entry g).active = true) : Touch s { s with pages := ps }
  | tables (ts : Vector (Vector Int 256) 4) : Touch s { s with shapes := ts }
  | cycles (cs : Vector GroupCycles 6) : Touch s { s with cycles := cs }
  | strain (st : Vector StrainChannel 256) (hrun : ∀ c, (s.strain.entry c).runWf → (st.entry c).runWf)
      (hcomp : compsShort s.strain → compsShort st) : Touch s { s with strain := st }
  | crack (cs : Vector CrackChannel 64) (ss : Vector CoincidenceSet 8) : Touch s { s with crack := cs, sets := ss }
  | floor (n : Nat) : Touch s { s with alarm := { s.alarm with floor := n } }
  | acknowledged (src : Source) : Touch s { s with alarm := s.alarm.without src }
  | raised (r : Raise) : Touch s (s.raised r)
  | captured (trigger : Trigger) (sweep : Half) : Touch s (s.capture trigger sweep)
  | captures (log : CaptureLog) (hlog : s.captures.Wf → log.Wf) : Touch s { s with captures := log }
  /-- The marker lines; in bypass none leaves its reset condition (R151). -/
  | markers (ms : Vector MarkerLine 4) (hbypass : s.outLane.bypass = true →
      (∀ l, s.markers.entry l = MarkerLine.atReset) → ∀ l, ms.entry l = MarkerLine.atReset) :
      Touch s { s with markers := ms }
  /-- The sweep watch; in bypass it does not leave its reset values (R156). -/
  | watch (f : SweepWatch → SweepWatch) (hbypass : s.outLane.bypass = true →
      s.watch = SweepWatch.atReset → f s.watch = SweepWatch.atReset) : Touch s (s.onWatch f)
  /-- The actuators' part of the interlock; an assignment changes between groups that are OFF alone (R89). -/
  | actuators (acts : Vector ActuatorLock 16) (hgroup : ∀ a, (acts.entry a).group = (s.actuator a).group ∨
      s.idle a ∧ ∀ g, (acts.entry a).group = some g → s.groupState g = .off) :
      Touch s { s with interlock := { s.interlock with acts := acts } }
  /-- The groups' part of the interlock but for their states. -/
  | locks (groups : Vector GroupLock 6) (hstate : ∀ g, (groups.entry g).state = s.groupState g)
      (hengage : ∀ g, (s.lock g).engageOk → (groups.entry g).engageOk)
      (hleads : leadsShort s.interlock.groups → leadsShort groups) :
      Touch s { s with interlock := { s.interlock with groups := groups } }
  /-- A group that is not OFF moves to RUN, HOLD, UNLOAD or REST; to RUN only from ENGAGING or with no latch (R76, R84). -/
  | moved (g : Group) (st : GroupState) (hfrom : s.groupState g ≠ .off) (hoff : st ≠ .off) (hengaging : st ≠ .engaging)
      (hrun : st = .run → s.groupState g = .engaging ∨ s.alarm.latches g = false) : Touch s (s.moveGroup g st)
  /-- DISENGAGE (R81). -/
  | stopped (g : Group) : Touch s (s.moveGroup g .off)
  /-- RELEASE from OFF (R76, R77). -/
  | engaged (g : Group) (hlatch : s.alarm.latches g = false) (hcomplete : s.complete g (s.pages.entry g).active = true)
      (hseed : ∀ a, (s.actuator a).group = some g → (s.actuator a).seed.isSome = true) : Touch s (s.engage g)

/-- Changes made by the work of blocks, one after the other. -/
abbrev Touches : State → State → Prop := Relation.ReflTransGen Touch

/-- A change that a part of a step makes. -/
inductive Change (s : State) : State → Prop
  | touch {t : State} (h : Touch s t) : Change s t
  | lane (l : LaneId) (f : Lane → Lane) (hbypass : (f (s.lane l)).bypass = true → (s.lane l).bypass = true)
      (hbound : (s.lane l).bounded → (f (s.lane l)).bounded) : Change s (s.onLane l f)
  | service (f : ServiceHandler → ServiceHandler) (hbound : s.service.bounded → (f s.service).bounded) :
      Change s (s.onService f)
  | unit (u : ResetUnit) : Change s { s with unit := u }
  | asserted : Change s s.assertReset

/-- Changes one after the other. -/
abbrev Changes : State → State → Prop := Relation.ReflTransGen Change

theorem Touches.one {s t : State} (h : Touch s t) : Touches s t := .single h

theorem Changes.one {s t : State} (h : Change s t) : Changes s t := .single h

theorem Touches.changes {s t : State} (h : Touches s t) : Changes s t := by
  induction h with
  | refl => exact .refl
  | tail _ hc ih => exact ih.tail (.touch hc)

/-- What a chain of changes keeps when each change does. -/
theorem Changes.keep {P : State → Prop} (h : ∀ s t, Change s t → P s → P t) {s t : State} (hst : Changes s t) (hs : P s) :
    P t := by
  induction hst with
  | refl => exact hs
  | tail _ hc ih => exact h _ _ hc ih

theorem Touches.foldl {α : Type} {f : State → α → State} (h : ∀ s a, Touches s (f s a)) (l : List α) (s : State) :
    Touches s (l.foldl f s) := by
  induction l generalizing s with
  | nil => exact .refl
  | cons a l ih => exact (h s a).trans (ih (f s a))

/-! ### What the work of blocks leaves -/

/-- What no `Touch` changes. -/
structure TouchKeeps (s t : State) : Prop where
  pending : t.pending = s.pending
  outLane : t.outLane = s.outLane
  retLane : t.retLane = s.retLane
  nodeAddress : t.unit.nodeAddress = s.unit.nodeAddress
  replies : t.service.replies = s.service.replies
  replySending : t.service.replySending = s.service.replySending

theorem State.moveGroup_leaves (s : State) (g : Group) (st : GroupState) :
    s.moveGroup g st =
      { s with interlock := (s.moveGroup g st).interlock, shaper := (s.moveGroup g st).shaper } := by
  unfold State.moveGroup State.discardOutputs
  split <;> rfl

theorem State.engage_leaves (s : State) (g : Group) :
    s.engage g = { s with interlock := (s.engage g).interlock, shaper := (s.engage g).shaper } := by
  unfold State.engage
  rw [State.moveGroup_of_ne_off _ _ (by decide)]
  rfl

theorem Touch.keeps {s t : State} (h : Touch s t) : TouchKeeps s t := by
  cases h with
  | raised r => exact ⟨by simp, by simp, by simp, by simp, by simp, by simp⟩
  | captured trigger sweep => exact ⟨by simp, by simp, by simp, by simp, by simp, by simp⟩
  | moved g st => rw [State.moveGroup_leaves]; exact ⟨rfl, rfl, rfl, rfl, rfl, rfl⟩
  | stopped g => rw [State.moveGroup_leaves]; exact ⟨rfl, rfl, rfl, rfl, rfl, rfl⟩
  | engaged g => rw [State.engage_leaves]; exact ⟨rfl, rfl, rfl, rfl, rfl, rfl⟩
  | unit u haddress => exact ⟨rfl, rfl, rfl, haddress, rfl, rfl⟩
  | service f hreplies hsending => exact ⟨rfl, rfl, rfl, rfl, hreplies, hsending⟩
  | _ => exact ⟨rfl, rfl, rfl, rfl, rfl, rfl⟩

theorem Touches.keeps {s t : State} (h : Touches s t) : TouchKeeps s t := by
  induction h with
  | refl => exact ⟨rfl, rfl, rfl, rfl, rfl, rfl⟩
  | tail _ hc ih =>
    have k := hc.keeps
    exact ⟨k.pending.trans ih.pending, k.outLane.trans ih.outLane, k.retLane.trans ih.retLane,
      k.nodeAddress.trans ih.nodeAddress, k.replies.trans ih.replies, k.replySending.trans ih.replySending⟩

theorem Change.pending {s t : State} (h : Change s t) : t.pending = s.pending := by
  cases h with
  | touch h => exact h.keeps.pending
  | lane l f => exact State.onLane_pending s l f
  | _ => rfl

theorem Changes.pending {s t : State} (h : Changes s t) : t.pending = s.pending := by
  induction h with
  | refl => rfl
  | tail _ hc ih => exact hc.pending.trans ih

end Sys2Proof.Machine
end

section
/-! PROOF. The service items as changes of the state: what each body of an item does is a chain of `Touch`, and so is an item
and the items of a frame. -/

namespace Sys2Proof.Machine

open Sys2Proof

/-! ### Shared updates -/

theorem Touch.onStrain {s : State} (c : Fin 256) (f : StrainChannel → StrainChannel)
    (hrun : (s.strain.entry c).runWf → (f (s.strain.entry c)).runWf)
    (hcomp : compsShort s.strain → compsShort (s.strain.alter c f)) : Touch s (s.onStrain c f) := by
  refine .strain _ (fun d hd => ?_) hcomp
  rw [Vector.entry_alter]
  split
  · next e => subst e; exact hrun hd
  · exact hd

/-- Where no channel's calibration record changes, compensation channels stay one level deep. -/
theorem compsShort_of_cal {st st' : Vector StrainChannel 256} (h : ∀ c, (st'.entry c).cal = (st.entry c).cal)
    (hs : compsShort st) : compsShort st' := by
  intro c d r hc hd
  obtain ⟨hne, hnone⟩ := hs c d r (h c ▸ hc) hd
  exact ⟨hne, fun q hq => hnone q (h d ▸ hq)⟩

theorem cal_alter {st : Vector StrainChannel 256} {c : Fin 256} {f : StrainChannel → StrainChannel}
    (h : ∀ ch, (f ch).cal = ch.cal) (d : Fin 256) : ((st.alter c f).entry d).cal = (st.entry d).cal := by
  rw [Vector.entry_alter]
  split
  · exact h _
  · rfl

/-- An update of one actuator's part of the interlock that leaves its group. -/
theorem Touch.onActuator {s : State} (a : Actuator) (f : ActuatorLock → ActuatorLock)
    (h : (f (s.actuator a)).group = (s.actuator a).group) : Touch s (s.onActuator a f) := by
  refine .actuators _ fun b => .inl ?_
  rw [Vector.entry_alter]
  split
  · next e => subst e; exact h
  · rfl

theorem leadsShort_of_record {ls ls' : Vector GroupLock 6}
    (h : ∀ g, (ls'.entry g).record.lead = (ls.entry g).record.lead) (hs : leadsShort ls) : leadsShort ls' := by
  intro g k hk
  obtain ⟨hne, hnone⟩ := hs g k (h g ▸ hk)
  exact ⟨hne, (h k).trans hnone⟩

/-- An update of one group's part of the interlock that leaves its state and its lead. -/
theorem Touch.onLock {s : State} (g : Group) (f : GroupLock → GroupLock)
    (hstate : (f (s.lock g)).state = (s.lock g).state)
    (hengage : (s.lock g).engageOk → (f (s.lock g)).engageOk)
    (hlead : (f (s.lock g)).record.lead = (s.lock g).record.lead) : Touch s (s.onLock g f) := by
  refine .locks _ (fun k => ?_) (fun k hk => ?_) (leadsShort_of_record fun k => ?_) <;> rw [Vector.entry_alter]
  · split
    · next e => subst e; exact hstate
    · rfl
  · split
    · next e => subst e; exact hengage hk
    · exact hk
  · split
    · next e => subst e; exact hlead
    · rfl

theorem Touch.writeCause (s : State) (g : Group) (c : HoldCause) : Touch s (s.writeCause g c) :=
  .onLock g _ rfl id rfl

theorem Touch.onMarker {s : State} (l : Line) (f : MarkerLine → MarkerLine)
    (h : s.outLane.bypass = true → s.markers.entry l = MarkerLine.atReset → f (s.markers.entry l) = MarkerLine.atReset) :
    Touch s (s.onMarker l f) := by
  refine .markers _ fun hb hs k => ?_
  rw [Vector.entry_alter]
  split
  · next e => subst e; exact h hb (hs _)
  · exact hs k

/-- A page store whose active pages stand, and whose pages in use keep the entries that they had. -/
theorem Touch.onPages {s : State} (g : Group) (f : GroupPages → GroupPages)
    (h : s.groupState g ≠ .off → s.complete g (s.pages.entry g).active = true →
      (s.onPages g f).complete g (f (s.pages.entry g)).active = true) : Touch s (s.onPages g f) := by
  refine .pages _ fun k hk hc => ?_
  rw [Vector.entry_alter]
  by_cases e : k = g
  · subst e; rw [if_pos rfl]; exact h hk hc
  · rw [if_neg e]
    refine Eq.trans ?_ hc
    show (s.members k).all _ = (s.members k).all _
    simp only [State.page, Vector.entry_alter, if_neg e]

/-- Where the pages themselves stand, completeness is read as before. -/
theorem State.complete_onPages {s : State} {g h : Group} {f : GroupPages → GroupPages}
    (hf : (f (s.pages.entry g)).pages = (s.pages.entry g).pages) (p : Fin 4) :
    (s.onPages g f).complete h p = s.complete h p := by
  unfold State.complete State.page
  simp only [State.members_onPages, State.onPages_pages, Vector.entry_alter]
  by_cases e : h = g
  · subst e; rw [if_pos rfl, hf]
  · rw [if_neg e]

/-! ### The qualifiers and the answer of a command -/

theorem Touch.spent (s : State) : Touch s (s.onService ServiceHandler.spent) := .service _ rfl rfl

theorem Touch.withResult (s : State) (r : ItemResult) : Touch s (s.onService fun v => v.withResult r) := .service _ rfl rfl

theorem Touches.command {s : State} {body : Option (Fin 4) → State → Answer}
    (h : Touches (s.onService ServiceHandler.spent) (body s.service.page (s.onService ServiceHandler.spent)).state)
    (code : Byte) (index : Half) : Touches s (s.command code index body) := by
  have hbody := (Touches.one (.spent s)).trans h
  unfold State.command
  dsimp only
  split
  · exact hbody
  · exact hbody.tail (.withResult _ _)

theorem Touches.itemPage (index : Half) (args : List Word) (s : State) : Touches s (itemPage index args s) := by
  unfold Machine.itemPage
  split
  · exact .one (.service _ rfl rfl)
  · exact .one (.withResult _ _)

theorem Touches.itemQuiet (index : Half) (args : List Word) (s : State) : Touches s (itemQuiet index args s) := by
  unfold Machine.itemQuiet
  split
  · exact .one (.service _ rfl rfl)
  · exact .one (.withResult _ _)

/-! ### The bodies (in the order of Figure 11-1) -/

/-- R15, R16: a binding made where the slot number is free of another role, and the role of another slot number. -/
theorem mapWf_bind {s : State} {n : Half} {r : Role} (hc : s.bindConflict n r = false)
    (hn : roleAt? s.slotMap n ≠ some r) (h : mapWf s.slotMap) :
    mapWf (insertBinding { slot := n, role := r } s.slotMap) := by
  obtain ⟨hrole, hslot⟩ := Bool.or_eq_false_iff.mp hc
  have hfree : roleAt? s.slotMap n = none := by
    cases hq : roleAt? s.slotMap n with
    | none => rfl
    | some q => rw [hq] at hrole hn; simp at hrole hn; exact absurd hrole hn
  have hslots := roleAt?_eq_none.mp hfree
  refine mapWf_insertBinding h hslots (slotOf?_eq_none.mp ?_)
  cases hm : s.slotMap.find? (fun b => b.role == r) with
  | none => simp [slotOf?, hm]
  | some b =>
    have hb : b.slot = n := by simpa [slotOf?, hm] using hslot
    exact absurd hb (hslots b (List.mem_of_find?_eq_some hm))

theorem Touches.resetForRole (s : State) (r : Role) : Touches s (s.resetForRole r) := by
  unfold State.resetForRole
  cases r with
  | strain c => exact .one (.onStrain c _ (fun _ => trivial) (compsShort_of_cal (cal_alter fun _ => rfl)))
  | crack k => exact .one (.crack _ s.sets)
  | feedback a => exact .one (.onActuator a _ rfl)
  | _ => exact .refl

theorem Touches.clearSeed (s : State) (r : Role) : Touches s (s.clearSeed r) := by
  unfold State.clearSeed
  cases r with
  | feedback a => exact .one (.onActuator a _ rfl)
  | _ => exact .refl

theorem Touches.mapBody (index : Half) (args : List Word) (s : State) : Touches s (mapBody index args s).state := by
  unfold Machine.mapBody
  split
  · split
    · exact .refl
    · split
      · exact .refl
      · split
        · exact .refl
        · exact ((Touches.one (.slotMap _ mapWf_removeBinding)).trans (Touches.resetForRole _ _)).trans (Touches.clearSeed _ _)
    · next r _ =>
      split
      · exact .refl
      · split
        · exact .refl
        · next hc =>
          split
          · exact .refl
          · next hn =>
            exact (Touches.one (.slotMap _ (mapWf_bind (by simpa using hc) hn))).trans (Touches.resetForRole _ _)
  · exact .refl

theorem State.idle_of_not_active {s : State} {a : Actuator} (h : s.active? (s.actuator a).group = false) : s.idle a := by
  intro g hg
  rw [hg] at h
  simpa [State.active?] using h

theorem Touches.writeActuator (s : State) (a : Actuator) (f : ActuatorFields) : Touches s (s.writeActuator a f).state := by
  unfold State.writeActuator
  split
  · exact .refl
  · next h =>
    obtain ⟨hold, hnew⟩ := Bool.or_eq_false_iff.mp (Bool.not_eq_true _ ▸ h)
    refine .one (.actuators _ fun b => ?_)
    rw [Vector.entry_alter]
    split
    · next e =>
      subst e
      refine .inr ⟨State.idle_of_not_active hold, fun g (hg : f.group = some g) => ?_⟩
      rw [hg] at hnew
      simpa [State.active?] using hnew
    · exact .inl rfl

theorem Touches.actuatorBody (index : Half) (args : List Word) (s : State) :
    Touches s (actuatorBody index args s).state := by
  unfold Machine.actuatorBody
  split
  · exact .refl
  · split
    · exact .refl
    · exact .writeActuator _ _ _
    · exact .writeActuator _ _ _

/-- R72: a changed lead that makes no chain leaves the leads one level deep. -/
theorem leadsShort_write {s : State} {g : Group} {r : GroupRecord} (hchain : s.leadChain g r.lead = false)
    (h : leadsShort s.interlock.groups) :
    leadsShort (s.interlock.groups.alter g fun l => { l with record := r }) := by
  obtain ⟨hnew, hlinked⟩ := Bool.or_eq_false_iff.mp hchain
  have hnamed : ∀ k, k ≠ g → (s.interlock.groups.entry k).record.lead ≠ some g := by
    intro k hk hl
    have := List.any_eq_false.mp hlinked k (List.mem_ofFn.mpr ⟨k, rfl⟩)
    simp only [State.lead, State.lock] at this
    rw [hl] at this
    simp [hk] at this
  intro k m hm
  rw [Vector.entry_alter] at hm ⊢
  by_cases ek : k = g
  · subst ek
    rw [if_pos rfl] at hm
    replace hm : r.lead = some m := hm
    rw [hm] at hnew
    obtain ⟨hne, hnone⟩ : m ≠ k ∧ s.lead m = none := by simpa using hnew
    rw [if_neg hne]
    exact ⟨hne, hnone⟩
  · rw [if_neg ek] at hm
    have hmg : m ≠ g := fun e => hnamed k ek (e ▸ hm)
    rw [if_neg hmg]
    exact h k m hm

/-- A group record that the rules allow (R90). -/
theorem groupRecord?_engageInterval {args : List Word} {r : GroupRecord} (h : groupRecord? args = some r) :
    1 ≤ r.engageInterval := by
  unfold groupRecord? at h
  split at h
  · split at h
    · cases h
    · split at h
      · next hin => cases h; exact hin.2.2.1
      · cases h
  · cases h

/-- R91: a record written to a group that is OFF or in REST. -/
theorem Touch.record {s : State} {g : Group} {r : GroupRecord} (hstate : (s.groupState g).holdsRecord = false)
    (hinterval : 1 ≤ r.engageInterval)
    (hleads : leadsShort s.interlock.groups → leadsShort (s.interlock.groups.alter g fun l => { l with record := r })) :
    Touch s (s.onLock g fun l => { l with record := r }) := by
  refine .locks _ (fun k => ?_) (fun k hk => ?_) hleads <;> rw [Vector.entry_alter]
  · split <;> rfl
  · split
    · next e =>
      subst e
      have hne : (s.lock k).state ≠ .engaging := fun e => by
        rw [show s.groupState k = .engaging from e] at hstate; cases hstate
      have hzero := hk.2
      rw [if_neg hne] at hzero
      exact ⟨hinterval, (if_neg hne).mpr hzero⟩
    · exact hk

theorem Touches.writeGroup (s : State) (g : Group) {r : GroupRecord} (hinterval : 1 ≤ r.engageInterval) :
    Touches s (s.writeGroup g r).state := by
  unfold State.writeGroup
  split
  · exact .refl
  · next hstate =>
    have hstate : (s.groupState g).holdsRecord = false := by simpa using hstate
    split
    · next hlead =>
      refine .one (.record hstate hinterval (leadsShort_of_record fun k => ?_))
      rw [Vector.entry_alter]
      split
      · next e => subst e; exact hlead
      · rfl
    · split
      · exact .refl
      · split
        · exact .refl
        · next hchain =>
          exact (Touches.one (.record hstate hinterval (leadsShort_write (by simpa using hchain)))).tail (.cycles _)

/-- The ordinary form of a write is what its argument words read as. -/
theorem read_of_formOf_write {α : Type} {read : List Word → Option α} {args : List Word} {x : α}
    (h : formOf read args = .write x) : read args = some x := by
  unfold formOf at h
  split at h
  · cases h
  · split at h
    · cases h
    · next y hy => cases h; exact hy

theorem Touches.groupBody (index : Half) (args : List Word) (s : State) : Touches s (groupBody index args s).state := by
  unfold Machine.groupBody
  split
  · exact .refl
  · split
    · exact .refl
    · exact .writeGroup _ _ (by decide)
    · next h => exact .writeGroup _ _ (groupRecord?_engageInterval (read_of_formOf_write h))

/-- R55: a page that the rules let be written is not in use as the active page of a group that is not OFF. -/
theorem Touch.onPage {s : State} {g : Group} {p : Fin 4} (f : Page → Page) (h : s.pageProtection g p = none) :
    Touch s (s.onPage g p f) := by
  refine .onPages g _ fun hoff hc => ?_
  have hne : (s.pages.entry g).active ≠ p := by
    intro e
    unfold State.pageProtection at h
    rw [if_pos (show (s.pages.entry g).active = p ∧ s.groupState g ≠ .off from ⟨e, hoff⟩)] at h
    split at h <;> cases h
  refine Eq.trans ?_ hc
  show (s.members g).all _ = (s.members g).all _
  simp only [State.page, State.onPages_pages, Vector.entry_alter_same, Vector.entry_alter_of_ne _ _ hne]

theorem Touches.pageGroupBody (index : Half) (args : List Word) (page : Option (Fin 4)) (s : State) :
    Touches s (pageGroupBody index args page s).state := by
  unfold Machine.pageGroupBody
  split
  · exact .refl
  · split
    · exact .refl
    · split
      · exact .refl
      · split
        · exact .refl
        · next h => exact .one (.onPage _ h)
      · split
        · exact .refl
        · next h => exact .one (.onPage _ h)

theorem Touches.pageActBody (index : Half) (args : List Word) (page : Option (Fin 4)) (s : State) :
    Touches s (pageActBody index args page s).state := by
  unfold Machine.pageActBody
  split
  · exact .refl
  · split
    · split
      · exact .refl
      · split
        · exact .refl
        · next h => exact .one (.onPage _ h)
      · split
        · exact .refl
        · next h => exact .one (.onPage _ h)
    · exact .refl

theorem Touches.shapeBody (index : Half) (args : List Word) (s : State) : Touches s (shapeBody index args s).state := by
  unfold Machine.shapeBody
  split
  · exact .refl
  · split
    · exact .refl
    · split
      · exact .refl
      · exact .one (.tables _)

/-- R97: a compensation channel that makes no chain leaves compensation channels one level deep. -/
theorem compsShort_write {s : State} {c : Fin 256} {r : Calibration} (hchain : s.compensationChain c r.comp = false)
    (h : compsShort s.strain) : compsShort (s.strain.alter c fun ch => { ch with cal := some r }) := by
  intro k d q hq hd
  simp only [Vector.entry_alter] at hq ⊢
  by_cases ek : k = c
  · subst ek
    rw [if_pos rfl] at hq
    obtain rfl : r = q := by simpa using hq
    rw [hd] at hchain
    simp only [State.compensationChain, Bool.or_eq_false_iff, beq_eq_false_iff_ne] at hchain
    obtain ⟨⟨hne, hnone⟩, -⟩ := hchain
    refine ⟨hne, fun p hp => ?_⟩
    rw [if_neg hne] at hp
    rw [hp] at hnone
    simpa using hnone
  · rw [if_neg ek] at hq
    obtain ⟨hne, hnone⟩ := h k d q hq hd
    refine ⟨hne, fun p hp => ?_⟩
    by_cases ed : d = c
    · subst ed
      rw [if_pos rfl] at hp
      obtain rfl : r = p := by simpa using hp
      cases hcomp : r.comp with
      | none => rfl
      | some e =>
        rw [hcomp] at hchain
        obtain ⟨-, hnamed⟩ := (by simpa only [State.compensationChain, Bool.or_eq_false_iff] using hchain : _ ∧ _)
        have := List.any_eq_false.mp hnamed k (List.mem_ofFn.mpr ⟨k, rfl⟩)
        rw [hq] at this
        simp [ek, hd] at this
    · rw [if_neg ed] at hp
      exact hnone p hp

theorem Touches.calBody (index : Half) (args : List Word) (s : State) : Touches s (calBody index args s).state := by
  unfold Machine.calBody
  split
  · exact .refl
  · split
    · exact .refl
    · refine .one (.onStrain _ _ id fun h k d q hq hd => ?_)
      simp only [Vector.entry_alter] at hq ⊢
      split at hq
      · cases hq
      · obtain ⟨hne, hnone⟩ := h k d q hq hd
        refine ⟨hne, fun p hp => ?_⟩
        split at hp
        · cases hp
        · exact hnone p hp
    · split
      · exact .refl
      · next h => exact .one (.onStrain _ _ id (compsShort_write (by simpa using h)))

theorem Touches.limitBody (index : Half) (args : List Word) (s : State) : Touches s (limitBody index args s).state := by
  unfold Machine.limitBody
  split
  · exact .refl
  · split
    · exact .refl
    · exact .one (.onStrain _ _ (fun _ => trivial) (compsShort_of_cal (cal_alter fun _ => rfl)))
    · exact .one (.onStrain _ _ (fun _ => trivial) (compsShort_of_cal (cal_alter fun _ => rfl)))

theorem Touches.crackBody (index : Half) (args : List Word) (s : State) : Touches s (crackBody index args s).state := by
  unfold Machine.crackBody
  split
  · exact .refl
  · split
    · exact .refl
    · exact .one (.crack _ s.sets)
    · exact .one (.crack _ s.sets)

theorem Touches.coincBody (index : Half) (args : List Word) (s : State) : Touches s (coincBody index args s).state := by
  unfold Machine.coincBody
  split
  · exact .refl
  · split
    · exact .refl
    · exact .one (.crack s.crack _)
    · exact .one (.crack s.crack _)

theorem Touches.removeLast (s : State) (g : Group) : Touches s (s.removeLast g) := by
  unfold State.removeLast
  dsimp only
  split
  · exact (Touches.one (.cycles _)).tail (.cycles _)
  · exact .one (.cycles _)

theorem Touches.blockBody (index : Half) (args : List Word) (s : State) : Touches s (blockBody index args s).state := by
  unfold Machine.blockBody
  split
  · exact .refl
  · dsimp only
    split
    · split
      · exact .refl
      · split
        · exact .refl
        · exact .removeLast _ _
    · split <;> exact .refl
    · split
      · exact .refl
      · split
        · exact .refl
        · split
          · exact .refl
          · exact .one (.cycles _)

/-- R149: a watch list that the rules allow names no channel twice. -/
theorem watchList?_spec {args : List Word} {cs : List (Fin 256)} (h : watchList? args = some cs) :
    cs.Nodup ∧ cs.length = args.length := by
  induction args generalizing cs with
  | nil => cases h; simp
  | cons w rest ih =>
    unfold watchList? at h
    split at h
    · next c ds _ hds =>
      split at h
      · cases h
      · next hc => cases h; simp [hc, ih hds]
    · cases h

theorem captureSettings?_spec {args : List Word} {x : Nat × List (Fin 256)} (h : captureSettings? args = some x) :
    (1 ≤ x.1 ∧ x.1 ≤ 32) ∧ x.2.length ≤ 4 ∧ x.2.Nodup := by
  unfold captureSettings? at h
  split at h
  · cases h
  · split at h
    · cases h
    · next hcs =>
      split at h
      · next hin =>
        cases h
        obtain ⟨hnodup, hlength⟩ := watchList?_spec hcs
        obtain ⟨hrest, hlow, hhigh⟩ := hin
        exact ⟨⟨hlow, hhigh⟩, hlength ▸ hrest, hnodup⟩
      · cases h

theorem Touch.setCapture (s : State) {mark : Nat} {cs : List (Fin 256)} (hmark : 1 ≤ mark ∧ mark ≤ 32)
    (hcs : cs.length ≤ 4 ∧ cs.Nodup) : Touch s (s.setCapture mark cs) :=
  .captures _ fun h => ⟨h.room, h.rising, h.following, hmark, hcs⟩

theorem Touches.captureCfgBody (index : Half) (args : List Word) (s : State) :
    Touches s (captureCfgBody index args s).state := by
  unfold Machine.captureCfgBody
  split
  · exact .refl
  · split
    · exact .refl
    · exact .one (.setCapture s (by decide) (by decide))
    · next h =>
      obtain ⟨hmark, hcs⟩ := captureSettings?_spec (read_of_formOf_write h)
      exact .one (.setCapture s hmark hcs)

theorem Touches.itemMarker (index : Half) (args : List Word) (s : State) : Touches s (itemMarker index args s) := by
  unfold Machine.itemMarker
  split
  · exact .refl
  · next hb =>
    have hbody : ∀ t : State, t.outLane.bypass = false → Touches t (markerBody index args t).state := by
      intro t ht
      unfold markerBody
      split
      · exact .refl
      · split
        · exact .refl
        · exact .one (.onMarker _ _ fun h => absurd h (by simp [ht]))
        · exact .one (.onMarker _ _ fun h => absurd h (by simp [ht]))
    exact Touches.command (hbody _ (by simpa using hb)) _ _

/-- R161: out of bypass the settings of the sweep watch may be replaced. -/
theorem Touches.itemWatch (index : Half) (args : List Word) (s : State) : Touches s (itemWatch index args s) := by
  unfold Machine.itemWatch
  split
  · exact .refl
  · next hb =>
    have hbody : ∀ t : State, t.outLane.bypass = false → Touches t (watchBody index args t).state := by
      intro t ht
      unfold watchBody
      split
      · exact .refl
      · split
        · exact .refl
        · exact .one (Touch.watch (fun w => w.configure _) fun h => absurd h (by simp [ht]))
        · exact .one (Touch.watch (fun w => w.configure _) fun h => absurd h (by simp [ht]))
    exact Touches.command (hbody _ (by simpa using hb)) _ _

theorem Touches.floorBody (index : Half) (args : List Word) (s : State) : Touches s (floorBody index args s).state := by
  unfold Machine.floorBody
  split
  · exact .refl
  · split
    · exact .refl
    · exact .one (.floor _)

theorem Touches.commitBody (index : Half) (args : List Word) (s : State) : Touches s (commitBody index args s).state := by
  unfold Machine.commitBody
  split
  · exact .refl
  · split
    · exact .refl
    · split
      · exact .refl
      · split
        · exact .refl
        · split
          · exact .refl
          · exact .one (.onPages _ _ fun _ hc => (State.complete_onPages rfl _).trans hc)

/-! ### The commands of the groups (R76 to R81) -/

/-- R76: the checks that a RELEASE has passed. -/
theorem State.releaseRefusal_eq_none {s : State} {g : Group} (h : s.releaseRefusal g = none) :
    (s.groupState g).isMoving = false ∧ s.alarm.latches g = false ∧
      s.complete g (s.pages.entry g).active = true ∧
      (s.groupState g = .off → ∀ a, (s.actuator a).group = some g → (s.actuator a).seed.isSome = true) := by
  unfold State.releaseRefusal at h
  split at h
  · cases h
  · next hmoving =>
    split at h
    · cases h
    · next hlatch =>
      split at h
      · cases h
      · split at h
        · cases h
        · next hcomplete =>
          split at h
          · cases h
          · next hseed =>
            refine ⟨by simpa using hmoving, by simpa using hlatch, by simpa using hcomplete, fun hoff a ha => ?_⟩
            have hmem : a ∈ s.members g := by
              simp only [State.members, List.mem_filter, beq_iff_eq]
              exact ⟨List.mem_ofFn.mpr ⟨a, rfl⟩, ha⟩
            have hnone : ¬((s.members g).any (fun a => (s.actuator a).seed.isNone)) = true := fun k => hseed ⟨hoff, k⟩
            simp only [List.any_eq_true, not_exists, not_and] at hnone
            simpa [Option.isSome_iff_ne_none] using hnone a hmem

theorem Touches.releaseBody (index : Half) (args : List Word) (s : State) :
    Touches s (releaseBody index args s).state := by
  unfold Machine.releaseBody
  split
  · exact .refl
  · next g _ =>
    split
    · exact .refl
    · split
      · exact .refl
      · next h =>
        obtain ⟨-, hlatch, hcomplete, hseed⟩ := State.releaseRefusal_eq_none h
        show Touches s (s.releaseGroup g)
        unfold State.releaseGroup
        split
        · next hoff => exact .one (.engaged g hlatch hcomplete (hseed hoff))
        · next hoff => exact .one (.moved g _ hoff (by decide) (by decide) fun _ => .inr hlatch)

theorem Touches.commandMove {s : State} {g : Group} {st : GroupState} (h : Touch s (s.moveGroup g st)) :
    Touches s (s.commandMove g st) := (Touches.one h).tail (.writeCause _ _ _)

theorem Touches.holdBody (index : Half) (args : List Word) (s : State) : Touches s (holdBody index args s).state := by
  unfold Machine.holdBody
  split
  · exact .refl
  · next g _ =>
    have hmove : s.groupState g ≠ .off → Touches s (s.commandMove g .hold) := fun h =>
      .commandMove (.moved g _ h (by decide) (by decide) nofun)
    split
    · exact .refl
    · split
      · next h => exact hmove (by simp [h])
      · next h => exact hmove (by simp [h])
      all_goals exact .refl

theorem Touches.unloadBody (index : Half) (args : List Word) (s : State) : Touches s (unloadBody index args s).state := by
  unfold Machine.unloadBody
  split
  · exact .refl
  · next g _ =>
    have hmove : s.groupState g ≠ .off → Touches s (s.commandMove g .unload) := fun h =>
      .commandMove (.moved g _ h (by decide) (by decide) nofun)
    split
    · exact .refl
    · split
      · next h => exact hmove (by simp [h])
      · next h => exact hmove (by simp [h])
      · next h => exact hmove (by simp [h])
      all_goals exact .refl

theorem Touches.disengageBody (index : Half) (args : List Word) (s : State) :
    Touches s (disengageBody index args s).state := by
  unfold Machine.disengageBody
  split
  · exact .refl
  · split
    · exact .refl
    · split
      · exact .commandMove (.stopped _)
      · exact .one (.stopped _)
      · exact .one (.stopped _)
      all_goals exact .refl

/-! ### The logs, the flags and the reads -/

theorem Touches.ackBody (index : Half) (args : List Word) (s : State) : Touches s (ackBody index args s).state := by
  unfold Machine.ackBody
  split
  · exact .refl
  · split
    · exact .refl
    · split
      · exact .refl
      · exact .one (.acknowledged _)

theorem Touches.resetScheduleBody (index : Half) (args : List Word) (s : State) :
    Touches s (resetScheduleBody index args s).state := by
  unfold Machine.resetScheduleBody
  split
  · exact .refl
  · split
    · exact .refl
    · split
      · exact .refl
      · exact (Touches.one (.cycles _)).tail (.shapes _ _)

theorem Touches.captureBody (index : Half) (args : List Word) (s : State) :
    Touches s (captureBody index args s).state := by
  unfold Machine.captureBody
  split
  · exact .refl
  · exact .one (.captured _ _)

theorem Touches.clearFlags (s : State) : Touches s s.clearFlags := by
  have hlost : Touch s { s with captures := { s.captures with lost := false } } :=
    .captures _ fun h => ⟨h.room, h.rising, h.following, h.watermark, h.watched⟩
  refine ((Touches.one hlost).tail (.service (fun v => { v with svcDrop := false }) rfl rfl)).tail
    (.pages (s.pages.alterAll fun _ y => { y with overridden := false }) fun g _ hc => ?_)
  refine Eq.trans ?_ hc
  show (s.members g).all _ = (s.members g).all _
  simp only [State.page, Vector.entry_alterAll]
  rfl

theorem Touches.clearFlagsBody (index : Half) (args : List Word) (s : State) :
    Touches s (clearFlagsBody index args s).state := by
  unfold Machine.clearFlagsBody
  split
  · exact .refl
  · exact .clearFlags s

theorem Touches.restartBody (index : Half) (args : List Word) (s : State) :
    Touches s (restartBody index args s).state := by
  unfold Machine.restartBody
  split
  · exact .refl
  · exact .one (.service (fun v => { v with restartPending := true, frameEnded := true }) rfl rfl)

theorem readBody_state (index : Half) (args : List Word) (page : Option (Fin 4)) (s : State) :
    (readBody index args page s).state = s := by
  unfold readBody
  split <;> rfl

theorem readPendingBody_state (index : Half) (args : List Word) (s : State) :
    (readPendingBody index args s).state = s := by
  unfold readPendingBody
  split
  · rfl
  · split
    · rfl
    · split <;> rfl

theorem Touch.dropCapture (s : State) : Touch s s.dropCapture := by
  refine .captures _ fun h => ⟨?_, fun i r q hr hq => ?_, fun r hr => ?_, h.watermark, h.watched⟩
  · have := h.room
    simp only [List.length_tail]
    omega
  · simp only [List.getElem?_tail] at hr hq
    exact h.rising _ r q hr hq
  · cases hq : s.captures.queue with
    | nil => simp [hq] at hr
    | cons x rest =>
      rw [hq] at hr
      refine h.following r ?_
      rw [hq]
      cases rest with
      | nil => cases hr
      | cons y rest => rw [List.getLast?_cons_cons]; exact hr

theorem Touches.readCaptureBody (index : Half) (args : List Word) (s : State) :
    Touches s (readCaptureBody index args s).state := by
  unfold Machine.readCaptureBody
  split
  · exact .refl
  · split
    · exact .refl
    · split
      · exact .refl
      · show Touches s (if _ then s.dropCapture else s)
        split
        · exact .one (.dropCapture s)
        · exact .refl

theorem Touches.readResetCauseBody (index : Half) (args : List Word) (s : State) :
    Touches s (readResetCauseBody index args s).state := by
  unfold Machine.readResetCauseBody
  split
  · exact .refl
  · exact .one (.unit _ rfl)

/-! ### An item, and the items of a frame -/

/-- The command that an item of a frame stands for, which its item code names (Figure 11-1). -/
theorem Touches.applyItem (it : Item) (s : State) : Touches s (applyItem it s) := by
  unfold Machine.applyItem
  split
  · exact .itemPage _ _ _
  · exact .itemQuiet _ _ _
  · exact .command (.mapBody _ _ _) _ _
  · exact .command (.actuatorBody _ _ _) _ _
  · exact .command (.groupBody _ _ _) _ _
  · exact .command (.pageGroupBody _ _ _ _) _ _
  · exact .command (.pageActBody _ _ _ _) _ _
  · exact .command (.shapeBody _ _ _) _ _
  · exact .command (.calBody _ _ _) _ _
  · exact .command (.limitBody _ _ _) _ _
  · exact .command (.crackBody _ _ _) _ _
  · exact .command (.coincBody _ _ _) _ _
  · exact .command (.blockBody _ _ _) _ _
  · exact .command (.captureCfgBody _ _ _) _ _
  · exact .itemMarker _ _ _
  · exact .itemWatch _ _ _
  · exact .command (.floorBody _ _ _) _ _
  · exact .command (.commitBody _ _ _) _ _
  · exact .command (.releaseBody _ _ _) _ _
  · exact .command (.holdBody _ _ _) _ _
  · exact .command (.unloadBody _ _ _) _ _
  · exact .command (.disengageBody _ _ _) _ _
  · exact .command (.ackBody _ _ _) _ _
  · exact .command (.resetScheduleBody _ _ _) _ _
  · exact .command (.captureBody _ _ _) _ _
  · exact .command (.clearFlagsBody _ _ _) _ _
  · exact .command (.restartBody _ _ _) _ _
  · exact .command (by rw [readBody_state]) _ _
  · exact .command (by rw [readPendingBody_state]) _ _
  · exact .command (.readCaptureBody _ _ _) _ _
  · exact .command (.readResetCauseBody _ _ _) _ _
  · exact .command .refl _ _

theorem Touches.applyItems (items : List Item) (s : State) : Touches s (applyItems items s) := by
  induction items generalizing s with
  | nil => exact .refl
  | cons it rest ih =>
    unfold Machine.applyItems
    dsimp only
    split
    · exact .applyItem it s
    · exact (Touches.applyItem it s).trans (ih _)

end Sys2Proof.Machine
end

section
/-! PROOF. The lanes, the return lane's blocks, reset and the service frame as changes of the state. -/

namespace Sys2Proof.Machine

open Sys2Proof

theorem Changes.foldl {α : Type} {f : State → α → State} (h : ∀ s a, Changes s (f s a)) (l : List α) (s : State) :
    Changes s (l.foldl f s) := by
  induction l generalizing s with
  | nil => exact .refl
  | cons a l ih => exact (h s a).trans (ih (f s a))

/-! ### Lanes and ports (R1, R4, R7, R10) -/

/-- An update of a lane that leaves its condition and its count and does not lengthen what waits. -/
theorem Changes.onLane {s : State} (l : LaneId) (f : Lane → Lane) (hbypass : (f (s.lane l)).bypass = (s.lane l).bypass)
    (hwait : (f (s.lane l)).waiting.length ≤ (s.lane l).waiting.length)
    (hbad : (f (s.lane l)).badFrames = (s.lane l).badFrames) : Changes s (s.onLane l f) :=
  .one (.lane l f (fun h => hbypass ▸ h) fun h => ⟨hwait.trans h.1, hbad.trans_le h.2⟩)

theorem Lane.takeBypassed_bypass (l : Lane) : l.takeBypassed.bypass = l.bypass := by
  rcases l.takeBypassed_cases with ⟨w, rest, -, -, -, e⟩ | e <;> rw [e]

theorem Changes.startSending (s : State) (l : LaneId) : Changes s (s.onLane l Lane.startSending) :=
  .onLane l _ (by simp) (by simp) (by simp)

theorem Changes.startPort (s : State) (l : LaneId) : Changes s (s.startPort l) := by
  cases l with
  | outbound => exact .startSending s .outbound
  | ret =>
    rcases s.startPort_ret_cases with ⟨-, e⟩ | ⟨bytes, -, -, e⟩ | ⟨-, -, -, e⟩ <;> rw [e]
    · exact .onLane .ret (fun x => { x with hand := some (.sending bytes) }) rfl le_rfl rfl
    · exact .one (.service (fun v => { v with replySending := !v.replies.isEmpty }) fun hb => ⟨hb.1, by simp⟩)

theorem Changes.settle (s : State) (l : LaneId) : Changes s (s.settle l) :=
  (Changes.onLane l _ (Lane.takeBypassed_bypass _) (Lane.takeBypassed_waiting_le _) (by simp)).trans
    (Changes.startPort _ l)

theorem Changes.countBad (s : State) (l : LaneId) : Changes s (s.onLane l Lane.countBad) :=
  .one (.lane l _ id fun h => ⟨h.1, countUp_bound h.2⟩)

/-- A frame joins the waiting frames of a lane with room. -/
theorem Changes.join {s : State} {l : LaneId} (w : Waiting) (h : (s.lane l).hasRoom = true) :
    Changes s (s.onLane l fun x => { x with waiting := x.waiting ++ [w] }) := by
  refine .one (.lane l _ id fun hb => ⟨?_, hb.2⟩)
  have hroom : (s.lane l).waiting.length < 4 := of_decide_eq_true h
  simp only [List.length_append, List.length_singleton]
  omega

theorem Changes.arriveBypassed (s : State) (l : LaneId) (bytes : List Byte) : Changes s (s.arriveBypassed l bytes) := by
  unfold State.arriveBypassed
  split
  · next h => exact (Changes.join _ h).trans (Changes.settle _ l)
  · exact .refl

theorem Changes.reportArrival {s : State} {l : LaneId} (bytes : List Byte) (h : (s.lane l).bypass = false) :
    Changes s (s.reportArrival l bytes) := by
  unfold State.reportArrival
  split
  · next hc =>
    have hl : l = .outbound := by simp at hc; exact hc.1.1
    subst hl
    exact .one (.touch (.watch (fun w => w.report _) fun hb => absurd hb (by simp [show s.outLane.bypass = false from h])))
  · exact .refl

theorem Changes.arriveChecked {s : State} {l : LaneId} (bytes : List Byte) (h : (s.lane l).bypass = false) :
    Changes s (s.arriveChecked l bytes) := by
  unfold State.arriveChecked
  split
  · dsimp only
    split
    · next hroom => exact (Changes.reportArrival bytes h).trans (Changes.join _ hroom)
    · exact (Changes.reportArrival bytes h).trans (Changes.countBad _ l)
  · exact .countBad s l

theorem Changes.arrive (s : State) (l : LaneId) (bytes : List Byte) : Changes s (s.arrive l bytes) := by
  unfold State.arrive
  split
  · exact .arriveBypassed s l bytes
  · next h => exact .arriveChecked bytes (by simpa using h)

theorem Changes.dropHead (s : State) (l : LaneId) : Changes s (s.onLane l Lane.dropHead) :=
  .onLane l _ rfl (by simp [Lane.dropHead]) rfl

theorem Changes.ready (s : State) (l : LaneId) (bytes : List Byte) : Changes s (s.onLane l fun x => x.ready bytes) :=
  .onLane l _ rfl le_rfl rfl

theorem Changes.passThrough (s : State) (l : LaneId) : Changes s (s.passThrough l) := by
  unfold State.passThrough
  split
  · exact .refl
  · split
    · exact ((Changes.dropHead s l).trans (Changes.ready _ l _)).trans (Changes.startPort _ l)
    · exact .refl

theorem Changes.frameSent (s : State) (l : LaneId) : Changes s (s.frameSent l) := by
  unfold State.frameSent
  split
  · exact (Changes.onLane l (fun x => { x with hand := none }) rfl le_rfl rfl).trans (Changes.settle _ l)
  · exact .refl

/-- An update of the sweep watch away from its reset values. -/
theorem Changes.onWatch {s : State} (f : SweepWatch → SweepWatch) (h : s.watch ≠ SweepWatch.atReset) :
    Changes s (s.onWatch f) := .one (.touch (.watch f fun _ e => absurd e h))

theorem Changes.standIn (s : State) : Changes s s.standIn := by
  unfold State.standIn
  split
  · next h => exact (Changes.onWatch _ fun e => by rw [e] at h; cases h).trans (Changes.arrive _ _ _)
  · exact .refl

/-! ### Raises and the sweep watch (R132, R158) -/

theorem Touches.raisedAll (rs : List Raise) (s : State) : Touches s (s.raisedAll rs) :=
  Touches.foldl (fun _ _ => .one (.raised _)) rs s

theorem Changes.watchExpiry (s : State) : Changes s s.watchExpiry := by
  unfold State.watchExpiry
  split
  · next h =>
    have hrun : s.watch ≠ SweepWatch.atReset := fun e => by rw [e] at h; cases h
    have hraised : Changes s ((s.onWatch fun w => { w with state := .expired, timer := none }).raised
        s.watch.timeoutRaise) := (Changes.onWatch _ hrun).tail (.touch (.raised _))
    dsimp only
    split
    · refine hraised.trans (Changes.onWatch _ fun e => ?_)
      rw [State.raised_watch] at e
      exact absurd (congrArg SweepWatch.state e) (by simp [SweepWatch.atReset])
    · exact hraised
  · exact .refl

/-! ### The blocks of the return lane (R6, R98, R118) -/

theorem Touch.feedbackNoted (s : State) (rd : Reading) : Touch s (s.feedbackNoted rd) := by
  refine .actuators _ fun a => .inl ?_
  rw [Vector.entry_alterAll]
  split
  · rfl
  · exact (ActuatorLock.noteFeedback_keeps _ _).1

/-- R108, R109: a run goes on or begins with a band beyond the watch state, where the sweep's own band lies beyond it. -/
theorem StrainChannel.runOn_runWf {ch : StrainChannel} {dir : Direction} {b : Band} (debounce : Nat) (h : ch.runWf)
    (hb : match dir with
      | .moreSevere => ch.watch.milder b = true
      | .lessSevere => b.milder ch.watch = true) : (ch.runOn debounce dir b).runWf := by
  obtain ⟨cal, limit, watch, count, run, warnCount, latest, armed⟩ := ch
  unfold StrainChannel.runOn
  dsimp only
  split
  · exact trivial
  · cases dir <;> rcases run with - | ⟨d, r⟩ <;> simp only [Band.milder, decide_eq_true_eq] at hb <;>
      simp only [StrainChannel.runWf] at h ⊢ <;> try exact hb
    · cases d <;> simp only [runBand, Band.mildest] at * <;> [split; skip] <;> assumption
    · cases d <;> simp only [runBand, Band.severest] at * <;> [skip; split] <;> assumption

theorem StrainChannel.judgeValue_runWf {ch : StrainChannel} (l : LimitRecord) (e : Int) (h : ch.runWf) :
    (ch.judgeValue l e).runWf := by
  unfold StrainChannel.judgeValue
  split
  · next hb => exact StrainChannel.runOn_runWf _ h hb
  · split
    · next hb => exact StrainChannel.runOn_runWf _ h hb
    · exact trivial

theorem StrainChannel.runOn_cal (ch : StrainChannel) (debounce : Nat) (dir : Direction) (b : Band) :
    (ch.runOn debounce dir b).cal = ch.cal := by
  unfold StrainChannel.runOn
  dsimp only
  split <;> rfl

theorem StrainChannel.judgeValue_cal (ch : StrainChannel) (l : LimitRecord) (e : Int) :
    (ch.judgeValue l e).cal = ch.cal := by
  unfold StrainChannel.judgeValue
  split
  · exact ch.runOn_cal _ _ _
  · split
    · exact ch.runOn_cal _ _ _
    · rfl

/-- A channel with its latest value replaced where the sweep gives one. -/
def StrainChannel.latestTaken (ch : StrainChannel) (v : Option (Int × Quality)) : StrainChannel :=
  { ch with latest := v.or ch.latest }

/-- R103, R106, R111: a channel that is judged has its source disarmed where it is raised. -/
theorem StrainChannel.afterSweep_judged {ch : StrainChannel} {l : LimitRecord} (hl : ch.limit = some l) (e : Int)
    (q : Quality) :
    ch.afterSweep (some (e, q)) =
      if ((ch.latestTaken (some (e, q))).judgeValue l e).raises ch.watch l = true then
        ({ (ch.latestTaken (some (e, q))).judgeValue l e with armed := false }, true)
      else ((ch.latestTaken (some (e, q))).judgeValue l e, false) := by
  obtain ⟨cal, limit, watch, count, run, warnCount, latest, armed⟩ := ch
  obtain rfl : limit = some l := hl
  rfl

/-- R106: a channel that is not judged has its run broken. -/
theorem StrainChannel.afterSweep_unjudged {ch : StrainChannel} {v : Option (Int × Quality)}
    (h : ch.limit = none ∨ v = none) : ch.afterSweep v = ((ch.latestTaken v).breakRun, false) := by
  obtain ⟨cal, limit, watch, count, run, warnCount, latest, armed⟩ := ch
  rcases h with h | rfl
  · obtain rfl : limit = none := h
    cases v <;> rfl
  · cases limit <;> rfl

/-- A channel after a sweep, judged or not, by what the judging keeps. -/
theorem StrainChannel.afterSweep_ind {P : StrainChannel → Prop} {ch : StrainChannel} (v : Option (Int × Quality))
    (hbreak : P (ch.latestTaken v).breakRun)
    (hjudge : ∀ (l : LimitRecord) (e : Int), P ((ch.latestTaken v).judgeValue l e))
    (harmed : ∀ c : StrainChannel, P c → P { c with armed := false }) : P (ch.afterSweep v).1 := by
  cases hl : ch.limit with
  | none => rw [StrainChannel.afterSweep_unjudged (.inl hl)]; exact hbreak
  | some l =>
    cases v with
    | none => rw [StrainChannel.afterSweep_unjudged (.inr rfl)]; exact hbreak
    | some x =>
      rw [StrainChannel.afterSweep_judged hl]
      split
      · exact harmed _ (hjudge _ _)
      · exact hjudge _ _

theorem StrainChannel.afterSweep_runWf {ch : StrainChannel} (v : Option (Int × Quality)) (h : ch.runWf) :
    (ch.afterSweep v).1.runWf :=
  StrainChannel.afterSweep_ind v trivial (fun l e => StrainChannel.judgeValue_runWf (ch := ch.latestTaken v) l e h)
    fun _ hc => hc

theorem StrainChannel.afterSweep_cal (ch : StrainChannel) (v : Option (Int × Quality)) :
    (ch.afterSweep v).1.cal = ch.cal :=
  StrainChannel.afterSweep_ind (P := fun c => c.cal = ch.cal) v rfl
    (fun l e => StrainChannel.judgeValue_cal (ch.latestTaken v) l e) fun _ hc => hc

theorem Touch.strainJudged (s : State) (rd : Reading) : Touch s (s.strainJudged rd) := by
  refine .strain _ (fun c hc => ?_) (compsShort_of_cal fun c => ?_) <;> rw [Vector.entry_alterAll]
  · exact StrainChannel.afterSweep_runWf _ hc
  · exact StrainChannel.afterSweep_cal _ _

theorem Touch.crackEvaluated (s : State) (rd : Reading) : Touch s (s.crackEvaluated rd) := .crack _ _

theorem Changes.inReturn (s : State) (h : Hand) : Changes s (s.inReturn h) := .onLane .ret _ rfl le_rfl rfl

theorem Changes.beginBlock (s : State) (sw : Sweep) (map : List Binding) (b : ReturnBlock) :
    Changes s (s.beginBlock sw map b) := by
  cases b with
  | feedbackIntake => exact (Changes.one (.touch (.feedbackNoted s _))).trans (Changes.inReturn _ _)
  | strainBlock => exact (Changes.one (.touch (.strainJudged s _))).trans (Changes.inReturn _ _)
  | crackWatch => exact (Changes.one (.touch (.crackEvaluated s _))).trans (Changes.inReturn _ _)
  | statusWriter => exact (Changes.inReturn s (.ready (sweepBytes (s.statusWriter map sw)))).trans (Changes.startPort _ .ret)

theorem Changes.handRaises (s : State) (n : Nat) : Changes s (s.handRaises n) := by
  unfold State.handRaises
  split
  · exact (Touches.raisedAll _ s).changes.trans (Changes.inReturn _ _)
  · exact .refl

theorem Changes.finishBlock (s : State) : Changes s s.finishBlock := .handRaises s _

theorem Changes.returnStep (s : State) (through : ReturnBlock) : Changes s (s.returnStep through) := by
  unfold State.returnStep
  split
  · split
    · exact (Changes.finishBlock s).trans (Changes.beginBlock _ _ _ _)
    · exact .refl
  · exact .refl

theorem Changes.handOver (s : State) (through : ReturnReach) : Changes s (s.handOver through) := by
  unfold State.handOver
  split
  · split
    · exact .handRaises s _
    · exact .refl
  · exact .refl

theorem Changes.takeReturn (s : State) : Changes s s.takeReturn := by
  unfold State.takeReturn
  split
  · exact .refl
  · split
    · exact (Changes.dropHead s .ret).trans (Changes.inReturn _ _)
    · exact .refl

theorem Changes.returnSweep (s : State) (through : ReturnReach) : Changes s (s.returnSweep through) :=
  (((((Changes.takeReturn s).trans (Changes.returnStep _ _)).trans (Changes.returnStep _ _)).trans
    (Changes.returnStep _ _)).trans (Changes.returnStep _ _)).trans (Changes.handOver _ _)

/-! ### Reset (R9, R11, R172) -/

theorem Changes.assertReset (s : State) : Changes s s.assertReset := .one .asserted

theorem Changes.lineAssert (s : State) : Changes s s.lineAssert := by
  unfold State.lineAssert
  split
  · exact .refl
  · exact (Changes.assertReset s).tail (.unit _)

theorem Changes.lineRelease (s : State) : Changes s s.lineRelease := by
  unfold State.lineRelease
  split
  · exact .one (.unit _)
  · exact .refl

theorem Changes.powerUp (s : State) : Changes s s.powerUp := (Changes.assertReset s).tail (.unit _)

theorem Changes.steady (s : State) : Changes s s.steady := by
  unfold State.steady
  split
  · exact .refl
  · exact .one (.unit _)

theorem Changes.leaveBypass (s : State) (l : LaneId) : Changes s (s.onLane l fun x => { x with bypass := false }) :=
  .one (.lane l _ nofun id)

theorem Changes.startupDone (s : State) (straps : BitVec 6) : Changes s (s.startupDone straps) := by
  unfold State.startupDone
  split
  · dsimp only
    split
    · exact .one (.unit _)
    · exact ((Changes.one (.unit _)).trans (Changes.leaveBypass _ .outbound)).trans (Changes.leaveBypass _ .ret)
  · exact .refl

theorem Changes.replySent (s : State) : Changes s s.replySent := by
  unfold State.replySent
  split
  · next r rest _ hreplies =>
    have hleft : Changes s (s.onService fun v => { v with replies := rest, replySending := false }) := by
      refine .one (.service _ fun hb => ⟨?_, nofun⟩)
      have := hb.1
      rw [hreplies] at this
      simp only [List.length_cons] at this
      exact Nat.le_of_succ_le this
    dsimp only
    split
    · exact (hleft.trans (Changes.assertReset _)).tail (.unit _)
    · exact hleft.trans (Changes.startPort _ _)
  · exact .refl

/-! ### A service frame (R164, R165, R171) -/

theorem Touches.orphan (s : State) (items : List Item) : Touches s (s.orphan items) := by
  unfold State.orphan
  split
  · split
    · exact .refl
    · exact .one (.withResult _ _)
  · exact .refl

theorem Changes.queueReply {s : State} (tag : Half) (h : s.service.replies.length < 4) :
    Changes s (s.queueReply tag) := by
  refine .one (.service _ fun _ => ⟨?_, fun _ => by simp⟩)
  simp only [List.length_append, List.length_singleton]
  omega

theorem Changes.applyFrame {s : State} (tag : Half) (items : List Item) (h : s.service.replies.length < 4) :
    Changes s (s.applyFrame tag items) := by
  have happlied : Touches s (((applyItems items (s.onService ServiceHandler.openFrame)).orphan items)) :=
    ((Touches.one (.service _ rfl rfl)).trans (Touches.applyItems _ _)).trans (Touches.orphan _ _)
  exact (happlied.changes.trans (Changes.queueReply tag (by rwa [happlied.keeps.replies]))).trans (Changes.startPort _ _)

theorem Changes.takeFrame (s : State) (bytes : List Byte) : Changes s (s.takeFrame bytes) := by
  unfold State.takeFrame
  split
  · next h =>
    exact (Changes.finishBlock s).trans (Changes.applyFrame _ _ (by simpa [Config.replyRoom] using h))
  · exact .one (.touch (.service (fun v => { v with svcDrop := true }) rfl rfl))

theorem Changes.serviceFrame (s : State) : Changes s s.serviceFrame := by
  unfold State.serviceFrame
  split
  · exact .refl
  · split
    · exact ((Changes.dropHead s _).trans (Changes.takeFrame _ _)).trans (Changes.settle _ _)
    · exact .refl

end Sys2Proof.Machine
end

section
/-! PROOF. The outbound sweep as changes of the state, with what the work on the groups and the events that fall during it leave
(R26 to R48), and every command as a chain of changes. -/

namespace Sys2Proof.Machine

open Sys2Proof

/-! ### The state while a sweep is being shaped -/

/-- What the shaping of a sweep, and the events that fall during it, do to the state: changes, none of them of the parts that
stand here. -/
structure Worked (s t : State) : Prop where
  changes : Changes s t
  pending : t.pending = s.pending
  unit : t.unit = s.unit
  outLane : t.outLane = s.outLane
  slotMap : t.slotMap = s.slotMap
  shapes : t.shapes = s.shapes
  lastTaken : t.shaper.lastTaken = s.shaper.lastTaken
  group : ∀ a : Actuator, (t.actuator a).group = (s.actuator a).group
  record : ∀ g : Group, (t.lock g).record = (s.lock g).record
  off : ∀ g : Group, t.groupState g = .off ↔ s.groupState g = .off

theorem Worked.refl (s : State) : Worked s s :=
  ⟨.refl, rfl, rfl, rfl, rfl, rfl, rfl, fun _ => rfl, fun _ => rfl, fun _ => Iff.rfl⟩

theorem Worked.trans {s t u : State} (h : Worked s t) (k : Worked t u) : Worked s u where
  changes := h.changes.trans k.changes
  pending := k.pending.trans h.pending
  unit := k.unit.trans h.unit
  outLane := k.outLane.trans h.outLane
  slotMap := k.slotMap.trans h.slotMap
  shapes := k.shapes.trans h.shapes
  lastTaken := k.lastTaken.trans h.lastTaken
  group a := (k.group a).trans (h.group a)
  record g := (k.record g).trans (h.record g)
  off g := (k.off g).trans (h.off g)

theorem Worked.foldl {α : Type} {f : State → α → State} (h : ∀ s a, Worked s (f s a)) (l : List α) (s : State) :
    Worked s (l.foldl f s) := by
  induction l generalizing s with
  | nil => exact .refl s
  | cons a l ih => exact (h s a).trans (ih (f s a))

theorem Worked.ofStage {s t : State} (h : Touches s t) (k : StageKeeps s t) : Worked s t :=
  ⟨h.changes, k.pending, k.unit, k.outLane, k.slotMap, k.shapes, k.lastTaken,
    fun a => by unfold State.actuator; rw [k.acts], k.record, k.off⟩

theorem Worked.ofMid {s t : State} (h : Changes s t) (k : MidKeeps s t) : Worked s t :=
  ⟨h, k.pending, k.unit, k.outLane, k.slotMap, k.shapes, by rw [k.shaper], k.group, k.record, k.off⟩

theorem Worked.members {s t : State} (h : Worked s t) (g : Group) : t.members g = s.members g := by
  unfold State.members
  simp only [h.group]

theorem Worked.lead {s t : State} (h : Worked s t) (g : Group) : t.lead g = s.lead g := by
  unfold State.lead
  rw [h.record]

theorem Worked.linkedTo {s t : State} (h : Worked s t) (g : Group) : t.linkedTo g = s.linkedTo g := by
  unfold State.linkedTo
  simp only [h.lead]

theorem Worked.onShape (s : State) (g : Group) (f : GroupShape → GroupShape) : Worked s (s.onShape g f) :=
  .ofStage (.one (.shapes _ _)) (.onShape s g f)

theorem Worked.onAllCycles (s : State) (f : Group → GroupCycles → GroupCycles) : Worked s (s.onAllCycles f) :=
  .ofStage (.one (.cycles _)) (.onAllCycles s f)

theorem Worked.raised (s : State) (r : Raise) : Worked s (s.raised r) := .ofStage (.one (.raised r)) (.raised s r)

/-- R153: no line of kind NONE is named by an event. -/
theorem Touch.tellMarkers (s : State) {named : MarkerLine → Bool} (h : ∀ m : MarkerLine, m.kind = .none → named m = false) :
    Touch s (s.tellMarkers named) := by
  refine .markers _ fun _ hs l => ?_
  rw [Vector.entry_alterAll, h _ (by rw [hs l]; rfl)]
  exact hs l

theorem MarkerLine.names_of_none {m : MarkerLine} (h : m.kind = .none) {kind : MarkerKind} (hk : kind ≠ .none) (g : Group) :
    m.names kind g = false := by
  rw [MarkerLine.names, h, beq_eq_false_iff_ne.mpr hk.symm, Bool.false_and]

theorem Worked.tellMarkers (s : State) {named : MarkerLine → Bool} (h : ∀ m : MarkerLine, m.kind = .none → named m = false) :
    Worked s (s.tellMarkers named) := .ofStage (.one (.tellMarkers s h)) (.tellMarkers s named)

/-! ### Events (R28) -/

theorem Touch.engageEnd {s : State} {g : Group} (h : s.groupState g = .engaging) : Touch s (s.moveGroup g .run) :=
  .moved g _ (by rw [h]; decide) (by decide) (by decide) fun _ => .inl h

theorem Touches.engageEnd (s : State) (g : Group) : Touches s (s.engageEnd g) := by
  unfold State.engageEnd
  split
  · next h => exact .one (.engageEnd (by simp at h; exact h.1))
  · exact .refl

theorem Changes.meet (s : State) (e : MidEvent) : Changes s (s.meet e) := by
  cases e with
  | returnWork through => exact .returnSweep s through
  | watchExpiry => exact .watchExpiry s
  | engageEnd g => exact (Touches.engageEnd s g).changes

theorem Worked.meet (s : State) (e : MidEvent) : Worked s (s.meet e) := .ofMid (.meet s e) (.meet s e)

/-! ### The sweep in hand -/

/-- What the work on a group does to the sweep in hand. A slot changes only by being rewritten in its place, and only a slot
whose number carries a role. -/
structure Shaping.Deals (x y : Shaping) : Prop where
  worked : Worked x.state y.state
  received : y.received = x.received
  number : y.number = x.number
  cycling : y.cycling = x.cycling
  working : ∀ g, y.working.entry g = .off ↔ x.working.entry g = .off
  length : y.slots.length = x.slots.length
  slots : ∀ i : Nat, y.slots[i]? = x.slots[i]? ∨ ∃ (sl : Slot) (kind : Byte) (q : Quality) (v : Word), x.received[i]? = some sl ∧
    roleAt? x.state.slotMap sl.number ≠ none ∧ y.slots[i]? = some (sl.rewrite kind q v)

/-- A group is worked on in OFF exactly where it is OFF. -/
def Shaping.Offs (x : Shaping) : Prop := ∀ g, x.working.entry g = .off ↔ x.state.groupState g = .off

theorem Shaping.Deals.refl (x : Shaping) : x.Deals x :=
  ⟨.refl _, rfl, rfl, rfl, fun _ => Iff.rfl, rfl, fun _ => .inl rfl⟩

theorem Shaping.Deals.trans {x y z : Shaping} (h : x.Deals y) (k : y.Deals z) : x.Deals z where
  worked := h.worked.trans k.worked
  received := k.received.trans h.received
  number := k.number.trans h.number
  cycling := k.cycling.trans h.cycling
  working g := (k.working g).trans (h.working g)
  length := k.length.trans h.length
  slots i := by
    rcases k.slots i with e | ⟨sl, kind, q, v, hsl, hrole, e⟩
    · rw [e]; exact h.slots i
    · rw [h.received] at hsl
      rw [h.worked.slotMap] at hrole
      exact .inr ⟨sl, kind, q, v, hsl, hrole, e⟩

theorem Shaping.Deals.ofState {x : Shaping} {t : State} (h : Worked x.state t) : x.Deals { x with state := t } :=
  ⟨h, rfl, rfl, rfl, fun _ => Iff.rfl, rfl, fun _ => .inl rfl⟩

theorem Shaping.Deals.offs {x y : Shaping} (h : x.Deals y) (hx : x.Offs) : y.Offs := fun g =>
  (h.working g).trans ((hx g).trans (h.worked.off g).symm)

theorem Shaping.Deals.foldl {α : Type} {f : Shaping → α → Shaping} {P : α → Prop} {x : Shaping} (l : List α)
    (hl : ∀ a ∈ l, P a) (h : ∀ y a, x.Deals y → P a → y.Deals (f y a)) : x.Deals (l.foldl f x) := by
  suffices hy : ∀ y, x.Deals y → x.Deals (l.foldl f y) from hy x (.refl x)
  induction l with
  | nil => exact fun y hy => hy
  | cons a l ih =>
    exact fun y hy => ih (fun b hb => hl b (List.mem_cons_of_mem _ hb)) _ (hy.trans (h y a hy (hl a List.mem_cons_self)))

theorem Shaping.Deals.meet (x : Shaping) (es : List MidEvent) : x.Deals (x.meet es) :=
  .ofState (Worked.foldl Worked.meet es x.state)

theorem Shaping.Deals.stage1 (x : Shaping) (g : Group) : x.Deals (x.stage1 g) := by
  unfold Shaping.stage1
  split
  · split
    · exact ⟨.onShape _ _ _, rfl, rfl, rfl, fun _ => Iff.rfl, rfl, fun _ => .inl rfl⟩
    · exact .refl x
  · split
    · exact ⟨.refl _, rfl, rfl, rfl, fun _ => Iff.rfl, rfl, fun _ => .inl rfl⟩
    · exact .refl x

/-! ### Stage 2 (R59, R61, R67 to R70) -/

/-- R59, R67: a complete page made active, or the active page left. -/
theorem Touch.adopt {s : State} {g : Group} (p : Fin 4) (pending : Option (Fin 4)) (overridden : GroupPages → Bool) :
    Touch s (s.onPages g fun y =>
      { y with pendingPage := pending, overridden := overridden y, active := if s.complete g p then p else y.active }) := by
  refine .onPages g _ fun _ hc => (State.complete_onPages rfl _).trans ?_
  dsimp only
  split
  · next h => exact h
  · exact hc

theorem Worked.adoptPage (s : State) (p : Fin 4) (g : Group) : Worked s (s.adoptPage p g) :=
  .ofStage (.one (.adopt p none _)) (.onPages s g _)

theorem Worked.swap (s : State) (g : Group) : Worked s (s.swap g) := by
  unfold State.swap
  split
  · exact .refl s
  · next p _ => exact .ofStage (.one (.adopt p none fun y => y.overridden)) (.onPages s g _)

theorem Worked.turnBlock (s : State) (lead : Group) : Worked s (s.turnBlock lead) :=
  (Worked.onAllCycles s _).trans (.ofStage (.one (.cycles _)) (.onCycles _ _ _))

/-- R27: an action never moves a working state to OFF or out of it. -/
theorem Shaping.moveWorking_off (x : Shaping) (act : Action) (mask : BitVec 6) (g : Group) :
    (x.moveWorking act mask).working.entry g = .off ↔ x.working.entry g = .off := by
  simp only [Shaping.moveWorking, Vector.entry_alterAll]
  split
  · cases h : (x.working.entry g).under act with
    | none => rfl
    | some st =>
      rcases GroupState.under_some h with ⟨-, hfrom, rfl⟩ | ⟨-, hfrom, rfl⟩
      · rcases hfrom with e | e <;> simp [e]
      · rcases hfrom with e | e | e <;> simp [e]
  · rfl

theorem Shaping.Deals.endAction (x : Shaping) (lead : Group) (what : Option (Action × CauseKind)) :
    x.Deals (x.endAction lead what) := by
  unfold Shaping.endAction
  split
  · exact .refl x
  · exact ⟨.raised _ _, rfl, rfl, rfl, fun g => Shaping.moveWorking_off _ _ _ g, rfl, fun _ => .inl rfl⟩

theorem Shaping.Deals.endBlock (x : Shaping) (lead : Group) (ending : BlockEntry) : x.Deals (x.endBlock lead ending) :=
  Shaping.Deals.trans (.ofState ((Worked.turnBlock _ lead).trans (Worked.foldl (fun s g => Worked.adoptPage s _ g) _ _)))
    (.endAction _ lead _)

theorem Shaping.Deals.tellBoundary (x : Shaping) (lead : Group) : x.Deals (x.tellBoundary lead) := by
  refine .ofState ((Worked.ofStage (.one (.captured _ _)) (.capture _ _ _)).trans (Worked.tellMarkers _ fun m hm => ?_))
  exact List.any_eq_false.mpr fun g _ => by rw [MarkerLine.names_of_none hm (by decide)]; decide

theorem Shaping.Deals.sequence (x : Shaping) (g : Group) (mid : List MidEvent) : x.Deals (x.sequence g mid) := by
  unfold Shaping.sequence
  split
  · have hcount : x.Deals (x.countCycle g) := .ofState (.onAllCycles _ _)
    dsimp only
    split
    · exact hcount.trans (.meet _ mid)
    · exact ((hcount.trans (.endBlock _ g _)).trans (.meet _ mid)).trans (.tellBoundary _ g)
  · exact .meet x mid

theorem Shaping.Deals.swapPage (x : Shaping) (g : Group) : x.Deals (x.swapPage g) := by
  unfold Shaping.swapPage
  split
  · exact .ofState (.swap _ g)
  · exact .refl x

theorem Shaping.Deals.tellTurning (x : Shaping) (g : Group) : x.Deals (x.tellTurning g) := by
  unfold Shaping.tellTurning
  split
  · refine .ofState (.tellMarkers _ fun m hm => ?_)
    rw [MarkerLine.names_of_none hm (by decide), MarkerLine.names_of_none hm (by decide), Bool.and_false, Bool.and_false,
      Bool.or_false]
  · exact .refl x

theorem Shaping.Deals.stage2 (x : Shaping) (g : Group) (mid : List MidEvent) : x.Deals (x.stage2 g mid) :=
  ((Shaping.Deals.sequence x g mid).trans (.swapPage _ g)).trans (.tellTurning _ g)

/-! ### Stages 3 to 6 (R39, R45, R46) -/

theorem Worked.setHolds (s : State) (g : Group) : Worked s (s.setHolds g) := by
  refine .ofStage ?_ (.setHolds s g)
  unfold State.setHolds
  split
  · exact .refl
  · refine .one (.outputs _ fun a ha => ?_)
    rw [Vector.entry_alterAll]
    split
    · exact ⟨fun h => ⟨(ha.1 h).1, (ha.1 h).1⟩, ha.2⟩
    · exact ha

theorem Shaping.Deals.trip {x : Shaping} {g : Group} (h : x.working.entry g ≠ .off) : x.Deals (x.trip g) := by
  refine ⟨?_, rfl, rfl, rfl, fun k => ?_, rfl, fun _ => .inl rfl⟩
  · unfold Shaping.trip
    dsimp only
    split
    · exact (Worked.raised _ _).trans (.onShape _ _ _)
    · exact .onShape _ _ _
  · simp only [Shaping.trip, Vector.entry_alter]
    split
    · next e => subst e; exact ⟨nofun, fun e => absurd e h⟩
    · rfl

theorem Shaping.Deals.rearmSum (x : Shaping) (g : Group) : x.Deals (x.rearmSum g) := .ofState (.onShape _ _ _)

theorem Shaping.Deals.sumCheck {x : Shaping} {g : Group} (h : x.working.entry g ≠ .off) (cands : List Output) :
    x.Deals (x.sumCheck g cands).1 := by
  unfold Shaping.sumCheck
  dsimp only
  split
  · exact .rearmSum x g
  · split
    · exact .rearmSum x g
    · exact .trip h

theorem Shaping.Deals.stage3to6 (x : Shaping) (g : Group) : x.Deals (x.stage3to6 g).1 := by
  unfold Shaping.stage3to6
  split
  · exact .rearmSum x g
  · next h => exact .sumCheck (by rw [h]; decide) _
  · next h => exact .sumCheck (by rw [h]; decide) _
  · next h =>
    have hset : x.Deals { x with state := x.state.setHolds g } := .ofState (.setHolds _ g)
    exact hset.trans (.sumCheck (by rw [h]; decide) _)
  · exact .rearmSum x g
  · exact .rearmSum x g

theorem Shaping.candidates_act (x : Shaping) (g : Group) (st : GroupState) :
    (x.candidates g st).map (·.act) = x.state.members g := by
  simp [Shaping.candidates, Function.comp_def]

theorem Shaping.repeated_act (x : Shaping) (g : Group) : (x.repeated g).map (·.act) = x.state.members g := by
  simp [Shaping.repeated, Function.comp_def]

/-- Stage 6 decides an output for each actuator of the group, in their order. -/
theorem Shaping.sumCheck_act {x : Shaping} {g : Group} {cands : List Output} (h : x.working.entry g ≠ .off)
    (hc : cands.map (·.act) = x.state.members g) : ((x.sumCheck g cands).2).map (·.act) = x.state.members g := by
  unfold Shaping.sumCheck
  dsimp only
  split
  · exact hc
  · split
    · exact x.repeated_act g
    · rw [Shaping.candidates_act]
      exact (Shaping.Deals.trip h).worked.members g

/-- Stages 3 to 6 decide an output for each actuator of a group that is not worked on in OFF, and none otherwise. -/
theorem Shaping.stage3to6_act (x : Shaping) (g : Group) :
    ((x.stage3to6 g).2).map (·.act) = if x.working.entry g = .off then [] else x.state.members g := by
  unfold Shaping.stage3to6
  split
  · next h => simp [h]
  · next h => rw [Shaping.sumCheck_act (by simp [h]) (x.candidates_act g _)]; simp [h]
  · next h => rw [Shaping.sumCheck_act (by simp [h]) (x.candidates_act g _)]; simp [h]
  · next h =>
    have hset : Worked x.state (x.state.setHolds g) := .setHolds _ g
    refine (Shaping.sumCheck_act (x := { x with state := x.state.setHolds g }) (by simp [h])
      (Shaping.candidates_act _ g _)).trans ?_
    simp [h, hset.members]
  · next h => rw [Shaping.candidates_act]; simp [h]
  · next h => rw [Shaping.candidates_act]; simp [h]

theorem State.mem_members {s : State} {g : Group} {a : Actuator} : a ∈ s.members g ↔ (s.actuator a).group = some g := by
  simp only [State.members, allActuators, List.mem_filter, List.mem_ofFn, id_eq, exists_eq, true_and, beq_iff_eq]

/-! ### Stages 7 and 8 (R34, R47, R84, R85) -/

/-- R47: a slot is written in its place, and only where a SETPOINT role is bound to its number. -/
theorem Shaping.writeSlot_slots (x : Shaping) (o : Output) (i : Nat) :
    (x.writeSlot o).slots[i]? = x.slots[i]? ∨ ∃ (sl : Slot) (kind : Byte) (q : Quality) (v : Word), x.received[i]? = some sl ∧
      roleAt? x.state.slotMap sl.number ≠ none ∧ (x.writeSlot o).slots[i]? = some (sl.rewrite kind q v) := by
  unfold Shaping.writeSlot
  split
  · exact .inl rfl
  · next j sl h =>
    obtain ⟨hat, hslot, -⟩ := present?_some h
    by_cases hij : j = i ∧ j < x.slots.length
    · obtain ⟨rfl, hj⟩ := hij
      refine .inr ⟨sl, _, _, _, hat, fun hnone => ?_, List.getElem?_set_self hj⟩
      have hfree := roleAt?_eq_none.mp hnone
      simp only [slotOf?, Option.map_eq_some_iff] at hslot
      obtain ⟨b, hb, hn⟩ := hslot
      exact hfree b (List.mem_of_find?_eq_some hb) hn
    · refine .inl ?_
      simp only [putSlot, List.getElem?_set]
      split
      · next e =>
        subst e
        rw [if_neg (fun hlt => hij ⟨rfl, hlt⟩)]
        exact (List.getElem?_eq_none (Nat.le_of_not_lt fun hlt => hij ⟨rfl, hlt⟩)).symm
      · rfl

/-- An output or none kept for an actuator, with its slot. -/
theorem Shaping.Deals.write {x : Shaping} (o : Output) (f : ActuatorOutput → ActuatorOutput)
    (h : x.state.outputFits o.act (x.state.output o.act) → x.state.outputFits o.act (f (x.state.output o.act))) :
    x.Deals { x.writeSlot o with state := x.state.onOutput o.act f } := by
  have hslot := x.writeSlot_keeps o
  have hworking : (x.writeSlot o).working = x.working := by unfold Shaping.writeSlot; split <;> rfl
  refine ⟨.ofStage (.one (.outputs _ fun a ha => ?_)) (.onOutput _ _ _), hslot.received, hslot.number, hslot.cycling,
    fun g => by rw [hworking], hslot.length, x.writeSlot_slots o⟩
  rw [Vector.entry_alter]
  split
  · next e => subst e; exact h ha
  · exact ha

theorem Shaping.Deals.keep {x : Shaping} {o : Output} (h : ¬x.state.idle o.act) : x.Deals (x.keep o) :=
  .write o _ fun _ => ⟨fun hidle => absurd hidle h, fun _ => rfl⟩

theorem Shaping.Deals.writeNone {x : Shaping} {a : Actuator} (h : x.state.idle a) : x.Deals (x.writeNone a) :=
  .write { act := a, value := 0, quality := .none } _ fun ha => ⟨fun _ => ⟨rfl, (ha.1 h).2⟩, fun hn => absurd h hn⟩

theorem Shaping.Deals.markShaped (x : Shaping) (g : Group) : x.Deals (x.markShaped g) := .ofState (.onShape _ _ _)

theorem Worked.idle {s t : State} (h : Worked s t) (a : Actuator) : t.idle a ↔ s.idle a := by
  unfold State.idle
  simp only [h.group, h.off]

/-- Stage 7 with outputs of actuators of the group alone. -/
theorem Shaping.Deals.stage7 {x : Shaping} {g : Group} {outs : List Output} (hoffs : x.Offs)
    (houts : ∀ o ∈ outs, (x.state.actuator o.act).group = some g) : x.Deals (x.stage7 g outs) := by
  unfold Shaping.stage7
  split
  · next h =>
    have hoff : x.state.groupState g = .off := (hoffs g).mp h
    refine .trans (.foldl (P := x.state.idle) _ (fun a ha k hk => ?_) fun y a hy ha => ?_) (.markShaped _ g)
    · rw [State.mem_members.mp ha] at hk
      cases hk
      exact hoff
    · exact .writeNone ((hy.worked.idle a).mpr ha)
  · next h =>
    refine .trans (.foldl (P := fun o => ¬x.state.idle o.act) _ (fun o ho hidle => ?_) fun y o hy ho => ?_)
      (.markShaped _ g)
    · exact h ((hoffs g).mpr (hidle g (houts o ho)))
    · exact .keep fun hidle => ho ((hy.worked.idle _).mp hidle)

theorem Worked.engageReport (s : State) (g : Group) : Worked s (s.engageReport g) := by
  refine .ofStage ?_ (.engageReport s g)
  unfold State.engageReport
  split
  · next hst =>
    refine .one (.onLock g _ ?_ (fun hok => ?_) ?_)
    · split <;> rfl
    · have hlt := hok.2
      rw [if_pos hst] at hlt
      split
      · exact ⟨hok.1, (if_pos (show (s.lock g).state = .engaging from hst)).mpr hlt⟩
      · next hne =>
        refine ⟨hok.1, (if_pos (show (s.lock g).state = .engaging from hst)).mpr ?_⟩
        show (s.lock g).engageCount + 1 < (s.lock g).record.engageInterval
        omega
    · split <;> rfl
  · exact .refl

theorem Worked.unloadCompletion (s : State) (g : Group) : Worked s (s.unloadCompletion g) := by
  refine .ofStage ?_ (.unloadCompletion s g)
  unfold State.unloadCompletion
  split
  · next h => exact .one (.moved g _ (by rw [h]; decide) (by decide) (by decide) nofun)
  · exact .refl

theorem Shaping.Deals.stage8 (x : Shaping) (g : Group) : x.Deals (x.stage8 g) := by
  unfold Shaping.stage8
  split
  · split
    · exact .ofState (.unloadCompletion _ g)
    · exact .refl x
  · exact .ofState (.engageReport _ g)
  all_goals exact .refl x

theorem Shaping.Deals.recordCycling (x : Shaping) (g : Group) : x.Deals (x.recordCycling g) := .ofState (.onShape _ _ _)

/-! ### A group, and the whole sweep (R26) -/

/-- Stage 7 writes outputs of the group's own actuators, whatever events fall between it and stage 6. -/
theorem Shaping.stage3to6_group (x : Shaping) (g : Group) (mid : List MidEvent) :
    ∀ o ∈ (x.stage3to6 g).2, (((x.stage3to6 g).1.meet mid).state.actuator o.act).group = some g := by
  intro o ho
  have hmem : o.act ∈ ((x.stage3to6 g).2).map (·.act) := List.mem_map_of_mem ho
  rw [Shaping.stage3to6_act] at hmem
  split at hmem
  · cases hmem
  · rw [((Shaping.Deals.stage3to6 x g).trans (.meet _ mid)).worked.group]
    exact State.mem_members.mp hmem

theorem Shaping.Deals.dealGroup {x : Shaping} (hoffs : x.Offs) (g : Group) (during : List (List MidEvent)) :
    x.Deals (x.dealGroup g during) := by
  have hpaged : x.Deals ((((x.meet (during.getD 0 [])).stage1 g).stage2 g (during.getD 1 [])).meet (during.getD 2 [])) :=
    (((Shaping.Deals.meet x _).trans (.stage1 _ g)).trans (.stage2 _ g _)).trans (.meet _ _)
  have hworked := (hpaged.trans (.stage3to6 _ g)).trans (.meet _ (during.getD 3 []))
  have hwritten := hworked.trans (.stage7 (hworked.offs hoffs) (Shaping.stage3to6_group _ g _))
  exact ((hwritten.trans (.meet _ _)).trans (.stage8 _ g)).trans (.recordCycling _ g)

theorem Shaping.Deals.dealGroups {x : Shaping} (hoffs : x.Offs) (order : List Group) (during : List (List MidEvent)) :
    x.Deals (Shaping.dealGroups order during x) := by
  induction order generalizing x during with
  | nil => exact .meet x _
  | cons g rest ih =>
    have h := Shaping.Deals.dealGroup hoffs g during
    exact h.trans (ih (h.offs hoffs) _)

theorem Shaping.Deals.dealAll {x : Shaping} (hoffs : x.Offs) (during : List (List MidEvent)) :
    x.Deals (x.dealAll during) := by
  have h := Shaping.Deals.dealGroups hoffs x.state.shapingOrder during
  refine h.trans (.foldl (P := (Shaping.dealGroups x.state.shapingOrder during x).state.idle) _ (fun a ha g hg => ?_)
    fun y a hy ha => .writeNone ((hy.worked.idle a).mpr ha))
  simp only [State.unassigned, List.mem_filter] at ha
  simp [hg] at ha

/-- The reports of ended engage intervals that still stand are taken first (R84). -/
def State.reportsTaken (s : State) : State := allGroups.foldl State.engageEnd s

/-- R26: the sweep in hand of a part whose reports have been taken. -/
def State.sweepInHand (s : State) (sw : Sweep) : Shaping :=
  let working := s.interlock.groups.alterAll (fun _ l => l.state)
  { state := { s with shaper := { s.shaper with lastTaken := sw.number } }
    received := sw.slots
    slots := sw.slots
    number := sw.number
    working := working
    cycling := working.alterAll (fun g _ => s.cyclingNow working g)
    crossings := fill 6 Crossing.none }

theorem State.takeSweep_eq (s : State) (sw : Sweep) : s.takeSweep sw = s.reportsTaken.sweepInHand sw := by
  simp only [State.takeSweep, State.sweepInHand, State.reportsTaken]

/-- R26: the working states are the states of the groups when the sweep is taken. -/
theorem State.sweepInHand_working (s : State) (sw : Sweep) (g : Group) :
    (s.sweepInHand sw).working.entry g = s.groupState g := Vector.entry_alterAll _ _ _

theorem State.sweepInHand_offs (s : State) (sw : Sweep) : (s.sweepInHand sw).Offs := fun g => by
  rw [State.sweepInHand_working]
  rfl

theorem Changes.sweepInHand (s : State) (sw : Sweep) : Changes s (s.sweepInHand sw).state :=
  .one (.touch (.shapes _ _))

theorem Touches.reportsTaken (s : State) : Touches s s.reportsTaken :=
  Touches.foldl Touches.engageEnd allGroups s

theorem Changes.shapeSweep (s : State) (sw : Sweep) (during : List (List MidEvent)) :
    Changes s (s.shapeSweep sw during).1 := by
  have h : (s.shapeSweep sw during).1 = ((s.reportsTaken.sweepInHand sw).dealAll during).state := by
    simp only [State.shapeSweep, State.takeSweep_eq]
  rw [h]
  exact ((Touches.reportsTaken s).changes.trans (Changes.sweepInHand _ sw)).trans
    (Shaping.Deals.dealAll (State.sweepInHand_offs _ sw) during).worked.changes

theorem Changes.outboundSweep (s : State) (during : List (List MidEvent)) : Changes s (s.outboundSweep during) := by
  unfold State.outboundSweep
  split
  · exact .refl
  · split
    · exact (((Changes.dropHead s .outbound).trans (Changes.shapeSweep _ _ during)).trans (Changes.ready _ .outbound _)).trans
        (Changes.startPort _ _)
    · exact .refl

/-! ### Every command -/

/-- A service item of its own finds the owed raises of a return-lane block handed over (R165). -/
theorem Changes.item {it : Item} {s : State} : Changes s (applyItem it s.finishBlock) :=
  (Changes.finishBlock s).trans (Touches.applyItem it _).changes

/-- A command that stands for an item is applied as that item. -/
theorem exec_of_itemOf? {c : Instr} {it : Item} (h : itemOf? c = some it) (s : State) :
    exec c s = .next (applyItem it s.finishBlock) := by
  cases c <;> cases h <;> exact congrArg Host.Outcome.next (Eq.symm rfl)

/-- Every command answers with a state that changes lead to. -/
theorem exec_changes (c : Instr) (s : State) : ∃ t : State, exec c s = .next t ∧ Changes s t := by
  cases c with
  | frameArrival l bytes => exact ⟨_, rfl, .arrive s l bytes⟩
  | outboundSweep during => exact ⟨_, rfl, .outboundSweep s during⟩
  | engageIntervalEnd g => exact ⟨_, rfl, (Touches.engageEnd s g).changes⟩
  | returnSweep through => exact ⟨_, rfl, .returnSweep s through⟩
  | framePassThrough l => exact ⟨_, rfl, .passThrough s l⟩
  | sweepWatchExpiry => exact ⟨_, rfl, .watchExpiry s⟩
  | standInExpiry => exact ⟨_, rfl, .standIn s⟩
  | markerPulseExpiry l => exact ⟨_, rfl, .one (.touch (.onMarker l _ fun _ e => by rw [e]; rfl))⟩
  | frameSent l => exact ⟨_, rfl, .frameSent s l⟩
  | replySent => exact ⟨_, rfl, .replySent s⟩
  | resetAssert => exact ⟨_, rfl, .lineAssert s⟩
  | resetRelease => exact ⟨_, rfl, .lineRelease s⟩
  | powerOn => exact ⟨_, rfl, .powerUp s⟩
  | startupComplete straps => exact ⟨_, rfl, .startupDone s straps⟩
  | serviceFrame => exact ⟨_, rfl, .serviceFrame s⟩
  | suppliesSteady => exact ⟨_, rfl, .steady s⟩
  | _ => exact ⟨_, exec_of_itemOf? rfl s, .item⟩

/-- A condition that no queue bears on and that every change keeps is kept by every step. -/
theorem step_keeps {P : State → Prop} (hqueue : ∀ (s : State) (q : List Instr), P s → P { s with pending := q })
    (hchange : ∀ s t : State, Change s t → P s → P t) {s t : State} (hs : P s) (h : step s = .next t) : P t := by
  unfold step at h
  split at h
  · cases h; exact hs
  · next c rest _ =>
    obtain ⟨u, hu, hchanges⟩ := exec_changes c { s with pending := rest }
    rw [hu] at h
    cases h
    exact hchanges.keep hchange (hqueue s rest hs)

end Sys2Proof.Machine
end

section
/-! PROOF. The conditions of Safety.lean: each holds after reset, and each is kept by every change, and so by every step. -/

namespace Sys2Proof.Machine

open Sys2Proof

/-! ### After reset -/

theorem State.reset_lock (g : Group) : State.reset.lock g = GroupLock.atReset := Vector.entry_fill _ _
theorem State.reset_groupState (g : Group) : State.reset.groupState g = .off := by
  unfold State.groupState; rw [State.reset_lock]; rfl
theorem State.reset_actuator (a : Actuator) : State.reset.actuator a = ActuatorLock.atReset := Vector.entry_fill _ _
theorem State.reset_output (a : Actuator) : State.reset.output a = ActuatorOutput.atReset := Vector.entry_fill _ _
theorem State.reset_shape (g : Group) : State.reset.shape g = GroupShape.atReset := Vector.entry_fill _ _
theorem State.reset_pages (g : Group) : State.reset.pages.entry g = GroupPages.atReset := Vector.entry_fill _ _
theorem State.reset_page (g : Group) (p : Fin 4) : State.reset.page g p = Page.atReset := by
  unfold State.page; rw [State.reset_pages]; exact Vector.entry_fill _ _
theorem State.reset_strain (c : Fin 256) : State.reset.strain.entry c = StrainChannel.atReset := Vector.entry_fill _ _

theorem State.reset_latchSafe : State.reset.latchSafe := fun g h => by
  rw [State.reset_groupState] at h
  rcases h with h | h <;> cases h

theorem State.reset_captures : State.reset.captures.Wf := ⟨by decide, nofun, nofun, by decide, by decide⟩

theorem State.reset_alarm : State.reset.alarm.wf := ⟨List.nodup_nil, .nil⟩

theorem State.reset_bounded : State.reset.bounded := by decide

theorem State.reset_leads : leadsShort State.reset.interlock.groups := fun g h hl => by
  rw [show State.reset.interlock.groups.entry g = GroupLock.atReset from State.reset_lock g] at hl
  cases hl

theorem State.reset_comps : compsShort State.reset.strain := fun c d r hc => by
  rw [State.reset_strain] at hc
  cases hc

theorem State.reset_engageSafe : State.reset.engageSafe := fun g => by
  unfold State.groupState
  rw [State.reset_lock]
  decide

theorem State.reset_outputsFollow : State.reset.outputsFollow := fun a => by
  rw [State.reset_actuator, State.reset_output]
  exact ⟨rfl, rfl⟩

theorem State.reset_pagesSafe : State.reset.pagesSafe := fun g h => absurd (State.reset_groupState g) h

theorem State.reset_runWf (c : Fin 256) : (State.reset.strain.entry c).runWf := by
  rw [State.reset_strain]
  exact trivial

/-! ### Groups that move, and raises -/

theorem State.lock_moveGroup (s : State) (g : Group) (st : GroupState) (h : Group) :
    (s.moveGroup g st).lock h =
      if h = g then { s.lock h with state := st, engageCount := 0, reportDue := false } else s.lock h := by
  rw [← State.lock_onLock s g (fun l => { l with state := st, engageCount := 0, reportDue := false })]
  exact congrArg (fun i : Interlock => i.groups.entry h) (s.moveGroup_lock g st)

theorem State.groupState_moveGroup (s : State) (g : Group) (st : GroupState) (h : Group) :
    (s.moveGroup g st).groupState h = if h = g then st else s.groupState h := by
  unfold State.groupState
  rw [State.lock_moveGroup]
  split <;> rfl

theorem State.groupState_engage (s : State) (g h : Group) :
    (s.engage g).groupState h = if h = g then .engaging else s.groupState h := s.groupState_moveGroup g _ h

theorem State.actuator_moveGroup (s : State) (g : Group) (st : GroupState) (a : Actuator) :
    (s.moveGroup g st).actuator a = s.actuator a :=
  (congrArg (fun i : Interlock => i.acts.entry a) (s.moveGroup_lock g st)).trans rfl

theorem State.actuator_engage (s : State) (g : Group) (a : Actuator) : (s.engage g).actuator a = s.actuator a :=
  s.actuator_moveGroup g _ a

theorem State.alarm_moveGroup (s : State) (g : Group) (st : GroupState) : (s.moveGroup g st).alarm = s.alarm := by
  rw [State.moveGroup_leaves]

theorem State.alarm_engage (s : State) (g : Group) : (s.engage g).alarm = s.alarm := by
  rw [State.engage_leaves]

theorem State.captures_moveGroup (s : State) (g : Group) (st : GroupState) : (s.moveGroup g st).captures = s.captures := by
  rw [State.moveGroup_leaves]

theorem State.captures_engage (s : State) (g : Group) : (s.engage g).captures = s.captures := by
  rw [State.engage_leaves]

theorem State.complete_eq {s t : State} (g : Group) (hgroup : ∀ a, (t.actuator a).group = (s.actuator a).group)
    (hpages : t.pages = s.pages) (p : Fin 4) : t.complete g p = s.complete g p := by
  unfold State.complete State.members State.page
  simp only [hgroup, hpages]

/-- R54: a complete page. -/
theorem State.complete_iff {s : State} {g : Group} {p : Fin 4} :
    s.complete g p = true ↔
      ∀ a, (s.actuator a).group = some g → ((s.page g p).entries.entry a).isSome = true := by
  simp only [State.complete, List.all_eq_true, State.mem_members]

theorem State.groupState_raised_off (s : State) (r : Raise) (g : Group) :
    (s.raised r).groupState g = .off ↔ s.groupState g = .off := (StageKeeps.raised s r).off g

/-- R133: the entries of the alarm table after a raise. -/
theorem State.raised_alarm (s : State) (r : Raise) :
    (s.raised r).alarm = if (s.alarm.entry? r.source).isSome then s.alarm else
      { s.alarm with entries := insertEntry (s.newEntry r) s.alarm.entries, counter := s.alarm.counter + 1 } := by
  cases h : s.alarm.entry? r.source with
  | some e => rw [State.raised_of_entry (by simp [h])]; rfl
  | none =>
    rw [State.raised_of_none h]
    dsimp only
    split <;> simp [State.withLocks]

/-! ### The slot map (R13) -/

theorem Touch.mapWf {s t : State} (h : Touch s t) (hs : mapWf s.slotMap) : mapWf t.slotMap := by
  cases h with
  | slotMap map hmap => exact hmap hs
  | raised r => rwa [State.raised_slotMap]
  | captured trigger sweep => rwa [State.capture_slotMap]
  | moved g st => rwa [State.moveGroup_leaves]
  | stopped g => rwa [State.moveGroup_leaves]
  | engaged g => rwa [State.engage_leaves]
  | _ => exact hs

/-! ### Latches (R75) -/

/-- R75, R82: a raise takes each group that it latches out of ENGAGING and RUN. -/
theorem State.raised_latchSafe {s : State} (r : Raise) (hs : s.latchSafe) : (s.raised r).latchSafe := by
  intro g hg
  have hlock := s.lock_raised r g
  rw [State.raised_alarm]
  unfold State.groupState at hg
  by_cases he : (s.alarm.entry? r.source).isSome = true
  · rw [if_pos he] at hlock ⊢
    rw [hlock] at hg
    exact hs g hg
  · rw [if_neg he] at hlock ⊢
    rw [hlock] at hg
    have hkept : (r.onGroup g (s.lock g)) = s.lock g ∧ ¬(r.action ≠ .note ∧ r.mask.getLsbD g.val = true) := by
      unfold Raise.onGroup at hg ⊢
      by_cases hm : r.mask.getLsbD g.val = true
      · rw [if_pos hm] at hg ⊢
        cases hu : (s.lock g).state.under r.action with
        | none =>
          rw [hu] at hg
          refine ⟨rfl, fun hact => ?_⟩
          have hnote : r.action ≠ .note := hact.1
          rcases hg with e | e <;> rw [e] at hu <;> cases ha : r.action <;> simp_all [GroupState.under]
        | some st =>
          rw [hu] at hg
          rcases GroupState.under_some hu with ⟨-, -, rfl⟩ | ⟨-, -, rfl⟩ <;> simp at hg
      · rw [if_neg hm]
        exact ⟨rfl, fun hact => hm hact.2⟩
    obtain ⟨hsame, hfree⟩ := hkept
    rw [hsame] at hg
    have hold := hs g hg
    rw [← Bool.not_eq_true, AlarmTable.latches_iff] at hold ⊢
    rintro ⟨e, he, hact, hmask⟩
    rcases mem_insertEntry.mp he with rfl | he
    · exact hfree ⟨hact, hmask⟩
    · exact hold ⟨e, he, hact, hmask⟩

theorem AlarmTable.latches_without {t : AlarmTable} {g : Group} (src : Source) (h : t.latches g = false) :
    (t.without src).latches g = false := by
  rw [← Bool.not_eq_true, AlarmTable.latches_iff] at h ⊢
  rintro ⟨e, he, hact, hmask⟩
  exact h ⟨e, List.mem_of_mem_filter he, hact, hmask⟩

theorem Touch.latchSafe {s t : State} (h : Touch s t) (hs : s.latchSafe) : t.latchSafe := by
  cases h with
  | acknowledged src => exact fun g hg => AlarmTable.latches_without src (hs g hg)
  | raised r => exact State.raised_latchSafe r hs
  | captured trigger sweep =>
    intro g hg
    unfold State.groupState State.lock at hg
    rw [State.capture_interlock] at hg
    rw [State.capture_alarm]
    exact hs g hg
  | locks groups hstate =>
    intro g hg
    rw [show ({ s with interlock := { s.interlock with groups := groups } } : State).groupState g = s.groupState g from
      hstate g] at hg
    exact hs g hg
  | moved g st hfrom hoff hengaging hrun =>
    intro k hk
    rw [State.groupState_moveGroup] at hk
    rw [State.alarm_moveGroup]
    split at hk
    · next e =>
      subst e
      rcases hk with hk | hk
      · exact absurd hk hengaging
      · exact (hrun hk).elim (fun h => hs k (.inl h)) id
    · exact hs k hk
  | stopped g =>
    intro k hk
    rw [State.groupState_moveGroup] at hk
    rw [State.alarm_moveGroup]
    split at hk
    · rcases hk with hk | hk <;> cases hk
    · exact hs k hk
  | engaged g hlatch =>
    intro k hk
    rw [State.groupState_engage] at hk
    rw [State.alarm_engage]
    split at hk
    · next e => subst e; exact hlatch
    · exact hs k hk
  | _ => exact hs

/-! ### The capture log (R144, R147) -/

theorem State.capture_wf {s : State} (trigger : Trigger) (sweep : Half) (hs : s.captures.Wf) :
    (s.capture trigger sweep).captures.Wf := by
  rcases s.capture_cases trigger sweep with ⟨hroom, e⟩ | ⟨-, e⟩ <;> rw [e]
  · have hrec : (s.captureRecord trigger sweep).seq = s.captures.nextSeq := rfl
    refine ⟨?_, fun i r q hr hq => ?_, fun r hr => ?_, hs.watermark, hs.watched⟩
    · simp only [List.length_append, List.length_singleton]
      omega
    · simp only [List.getElem?_append] at hr hq
      split at hq
      · next hi => rw [if_pos (by omega)] at hr; exact hs.rising i r q hr hq
      · next hi =>
        obtain ⟨hi1, rfl⟩ : i + 1 - s.captures.queue.length = 0 ∧ s.captureRecord trigger sweep = q := by
          simpa [List.getElem?_singleton] using hq
        rw [if_pos (by omega)] at hr
        rw [hrec]
        refine hs.following r ?_
        rw [List.getLast?_eq_getElem?, ← hr]
        congr 1
        omega
    · rw [List.getLast?_concat] at hr
      cases hr
      rfl
  · exact ⟨hs.room, hs.rising, hs.following, hs.watermark, hs.watched⟩

theorem State.raised_wf {s : State} (r : Raise) (hs : s.captures.Wf) : (s.raised r).captures.Wf := by
  cases h : s.alarm.entry? r.source with
  | some e => rwa [State.raised_of_entry (by simp [h])]
  | none =>
    rw [State.raised_of_none h]
    dsimp only
    split
    · exact State.capture_wf _ _ hs
    · exact hs

theorem Touch.captures_wf {s t : State} (h : Touch s t) (hs : s.captures.Wf) : t.captures.Wf := by
  cases h with
  | raised r => exact State.raised_wf r hs
  | captured trigger sweep => exact State.capture_wf _ _ hs
  | captures log hlog => exact hlog hs
  | moved g st => rwa [State.captures_moveGroup]
  | stopped g => rwa [State.captures_moveGroup]
  | engaged g => rwa [State.captures_engage]
  | _ => exact hs

/-! ### The alarm table (R131, R137) -/

theorem State.raised_alarm_wf {s : State} (r : Raise) (hs : s.alarm.wf) : (s.raised r).alarm.wf := by
  rw [State.raised_alarm]
  cases h : s.alarm.entry? r.source with
  | some e => exact hs
  | none =>
    have hnew := AlarmTable.entry?_eq_none.mp h
    refine ⟨?_, insertEntry_ordered hs.2 hnew⟩
    have hperm : ∀ l : List Entry, (insertEntry (s.newEntry r) l).Perm (s.newEntry r :: l) := by
      intro l
      induction l with
      | nil => exact .refl _
      | cons f rest ih =>
        unfold insertEntry
        split
        · exact .refl _
        · exact (ih.cons f).trans (.swap _ _ _)
    refine (((hperm s.alarm.entries).map (·.source)).nodup_iff).mpr (List.nodup_cons.mpr ⟨?_, hs.1⟩)
    simpa [State.newEntry] using hnew

theorem Touch.alarm_wf {s t : State} (h : Touch s t) (hs : s.alarm.wf) : t.alarm.wf := by
  cases h with
  | acknowledged src => exact ⟨hs.1.sublist (List.filter_sublist.map _), hs.2.filter _⟩
  | raised r => exact State.raised_alarm_wf r hs
  | captured trigger sweep => rwa [State.capture_alarm]
  | moved g st => rwa [State.alarm_moveGroup]
  | stopped g => rwa [State.alarm_moveGroup]
  | engaged g => rwa [State.alarm_engage]
  | _ => exact hs

/-! ### Leads and compensation channels (R72, R97) -/

theorem leadsShort_of_lock {s t : State} (h : ∀ g, (t.lock g).record = (s.lock g).record)
    (hs : leadsShort s.interlock.groups) : leadsShort t.interlock.groups :=
  leadsShort_of_record (fun g => congrArg GroupRecord.lead (h g)) hs

theorem State.record_moveGroup (s : State) (g : Group) (st : GroupState) (h : Group) :
    ((s.moveGroup g st).lock h).record = (s.lock h).record := by
  rw [State.lock_moveGroup]
  split <;> rfl

theorem Touch.leadsShort {s t : State} (h : Touch s t) (hs : leadsShort s.interlock.groups) :
    Machine.leadsShort t.interlock.groups := by
  cases h with
  | raised r => exact leadsShort_of_lock (StageKeeps.raised s r).record hs
  | captured trigger sweep => rwa [State.capture_interlock]
  | locks groups hstate hengage hleads => exact hleads hs
  | moved g st => exact leadsShort_of_lock (s.record_moveGroup g st) hs
  | stopped g => exact leadsShort_of_lock (s.record_moveGroup g _) hs
  | engaged g => exact leadsShort_of_lock (s.record_moveGroup g .engaging) hs
  | _ => exact hs

theorem Touch.strain_eq {s t : State} (h : Touch s t) : t.strain = s.strain ∨
    ((∀ c, (s.strain.entry c).runWf → (t.strain.entry c).runWf) ∧ (compsShort s.strain → compsShort t.strain)) := by
  cases h with
  | strain st hrun hcomp => exact .inr ⟨hrun, hcomp⟩
  | raised r => exact .inl (by simp)
  | captured trigger sweep => exact .inl (by simp)
  | moved g st => exact .inl (by rw [State.moveGroup_leaves])
  | stopped g => exact .inl (by rw [State.moveGroup_leaves])
  | engaged g => exact .inl (by rw [State.engage_leaves])
  | _ => exact .inl rfl

/-! ### Engage counts (R74, R84) -/

theorem Raise.onGroup_engageOk (r : Raise) (g : Group) {l : GroupLock} (h : l.engageOk) : (r.onGroup g l).engageOk := by
  unfold Raise.onGroup
  split
  · split
    · exact h
    · next st hu =>
      have hne : st ≠ .engaging := by rcases GroupState.under_some hu with ⟨-, -, rfl⟩ | ⟨-, -, rfl⟩ <;> decide
      exact ⟨h.1, (if_neg hne).mpr ⟨rfl, rfl⟩⟩
  · exact h

theorem GroupLock.engageOk_moved {l : GroupLock} (st : GroupState) (h : l.engageOk) :
    ({ l with state := st, engageCount := 0, reportDue := false } : GroupLock).engageOk := by
  refine ⟨h.1, ?_⟩
  split
  · exact h.1
  · exact ⟨rfl, rfl⟩

theorem State.moveGroup_engageSafe {s : State} (g : Group) (st : GroupState) (hs : s.engageSafe) :
    (s.moveGroup g st).engageSafe := by
  rw [State.engageSafe_iff] at hs ⊢
  intro k
  rw [State.lock_moveGroup]
  split
  · exact GroupLock.engageOk_moved st (hs k)
  · exact hs k

theorem Touch.engageSafe {s t : State} (h : Touch s t) (hs : s.engageSafe) : t.engageSafe := by
  cases h with
  | raised r =>
    rw [State.engageSafe_iff] at hs ⊢
    intro g
    rw [State.lock_raised]
    split
    · exact hs g
    · exact Raise.onGroup_engageOk r g (hs g)
  | captured trigger sweep =>
    rw [State.engageSafe_iff] at hs ⊢
    intro g
    unfold State.lock
    rw [State.capture_interlock]
    exact hs g
  | locks groups hstate hengage => exact fun g => hengage g (hs g)
  | moved g st => exact State.moveGroup_engageSafe g st hs
  | stopped g => exact State.moveGroup_engageSafe g _ hs
  | engaged g => exact State.moveGroup_engageSafe g .engaging hs
  | _ => exact hs

/-! ### Outputs (R25) -/

/-- An output fits as before where assignments, the groups that are OFF and the output stand. -/
theorem State.outputsFollow_of_same {s t : State} (hgroup : ∀ a, (t.actuator a).group = (s.actuator a).group)
    (hoff : ∀ g, t.groupState g = .off ↔ s.groupState g = .off) (hout : ∀ a, t.output a = s.output a)
    (hs : s.outputsFollow) : t.outputsFollow := by
  rw [State.outputsFollow_iff] at hs ⊢
  intro a
  have hidle : t.idle a ↔ s.idle a := by unfold State.idle; simp only [hgroup, hoff]
  unfold State.outputFits
  rw [hidle, hout]
  exact hs a

theorem State.outputsFollow_stopped {s : State} (g : Group) (hs : s.outputsFollow) :
    (s.moveGroup g .off).outputsFollow := by
  rw [State.outputsFollow_iff] at hs ⊢
  intro a
  have hout : (s.moveGroup g .off).output a =
      if (s.actuator a).group == some g then { s.output a with kept := none, hold := none } else s.output a := by
    unfold State.moveGroup State.discardOutputs
    rw [if_pos rfl]
    simp
  unfold State.outputFits State.idle
  rw [hout, State.actuator_moveGroup]
  by_cases hg : (s.actuator a).group = some g
  · rw [if_pos (by simpa using hg)]
    exact ⟨fun _ => ⟨rfl, rfl⟩, fun h => absurd (fun k hk => by
      rw [hg] at hk; cases hk; rw [State.groupState_moveGroup, if_pos rfl]) h⟩
  · rw [if_neg (by simpa using hg)]
    have hidle : (∀ k, (s.actuator a).group = some k → (s.moveGroup g .off).groupState k = .off) ↔ s.idle a := by
      refine forall_congr' fun k => imp_congr_right fun hk => ?_
      rw [State.groupState_moveGroup, if_neg (fun e => hg (by rw [← e]; exact hk))]
    rw [hidle]
    exact hs a

theorem State.outputsFollow_engaged {s : State} {g : Group}
    (hseed : ∀ a, (s.actuator a).group = some g → (s.actuator a).seed.isSome = true) (hs : s.outputsFollow) :
    (s.engage g).outputsFollow := by
  rw [State.outputsFollow_iff] at hs ⊢
  intro a
  have hout : (s.engage g).output a =
      if (s.actuator a).group == some g then { s.output a with kept := (s.actuator a).seed } else s.output a := by
    unfold State.engage State.takeSeeds
    rw [State.moveGroup_of_ne_off _ _ (by decide)]
    simp
  unfold State.outputFits State.idle
  rw [hout, State.actuator_engage]
  by_cases hg : (s.actuator a).group = some g
  · rw [if_pos (by simpa using hg)]
    refine ⟨fun h => ?_, fun _ => hseed a hg⟩
    have := h g hg
    rw [State.groupState_engage, if_pos rfl] at this
    cases this
  · rw [if_neg (by simpa using hg)]
    have hidle : (∀ k, (s.actuator a).group = some k → (s.engage g).groupState k = .off) ↔ s.idle a := by
      refine forall_congr' fun k => imp_congr_right fun hk => ?_
      rw [State.groupState_engage, if_neg (fun e => hg (by rw [← e]; exact hk))]
    rw [hidle]
    exact hs a

theorem State.groupState_moved_off {s : State} {g : Group} {st : GroupState} (hfrom : s.groupState g ≠ .off)
    (hoff : st ≠ .off) (k : Group) : (s.moveGroup g st).groupState k = .off ↔ s.groupState k = .off := by
  rw [State.groupState_moveGroup]
  split
  · next e => subst e; exact ⟨fun e => absurd e hoff, fun e => absurd e hfrom⟩
  · rfl

theorem State.groupState_capture (s : State) (trigger : Trigger) (sweep : Half) (g : Group) :
    (s.capture trigger sweep).groupState g = s.groupState g := by
  unfold State.groupState State.lock
  rw [State.capture_interlock]

theorem Touch.outputsFollow {s t : State} (h : Touch s t) (hs : s.outputsFollow) : t.outputsFollow := by
  cases h with
  | outputs acts hfits => exact (State.outputsFollow_iff _).mpr fun a => hfits a ((State.outputsFollow_iff s).mp hs a)
  | raised r =>
    refine State.outputsFollow_of_same (fun a => by rw [State.actuator_raised]) (s.groupState_raised_off r) (fun a => ?_) hs
    unfold State.output
    rw [State.raised_shaper]
  | captured trigger sweep =>
    refine State.outputsFollow_of_same (fun a => by rw [State.actuator_capture])
      (fun g => by rw [State.groupState_capture]) (fun a => ?_) hs
    unfold State.output
    rw [State.capture_shaper]
  | actuators acts hgroup =>
    rw [State.outputsFollow_iff] at hs ⊢
    intro a
    have hidle : (∀ g, (acts.entry a).group = some g → s.groupState g = .off) ↔ s.idle a := by
      rcases hgroup a with e | ⟨hold, hnew⟩
      · rw [e]; rfl
      · exact ⟨fun _ => hold, fun _ => hnew⟩
    show ((∀ g, (acts.entry a).group = some g → s.groupState g = .off) → _) ∧ _
    exact ⟨fun h => (hs a).1 (hidle.mp h), fun h => (hs a).2 (fun h' => h (hidle.mpr h'))⟩
  | locks groups hstate =>
    exact State.outputsFollow_of_same (s := s) (fun _ => rfl)
      (fun g => iff_of_eq (congrArg (· = GroupState.off) (hstate g))) (fun _ => rfl) hs
  | moved g st hfrom hoff =>
    refine State.outputsFollow_of_same (fun a => by rw [State.actuator_moveGroup])
      (State.groupState_moved_off hfrom hoff) (fun a => ?_) hs
    rw [State.moveGroup_of_ne_off _ _ hoff, State.output_onLock]
  | stopped g => exact State.outputsFollow_stopped g hs
  | engaged g hlatch hcomplete hseed => exact State.outputsFollow_engaged hseed hs
  | _ => exact hs

/-! ### Active pages (R54) -/

theorem State.pagesSafe_of_same {s t : State} (hgroup : ∀ a, (t.actuator a).group = (s.actuator a).group)
    (hpages : t.pages = s.pages) (hoff : ∀ g, t.groupState g = .off ↔ s.groupState g = .off) (hs : s.pagesSafe) :
    t.pagesSafe := by
  intro g hg
  rw [State.complete_eq g hgroup hpages, hpages]
  exact hs g fun e => hg ((hoff g).mpr e)

theorem State.pages_moveGroup (s : State) (g : Group) (st : GroupState) : (s.moveGroup g st).pages = s.pages := by
  rw [State.moveGroup_leaves]

theorem Touch.pagesSafe {s t : State} (h : Touch s t) (hs : s.pagesSafe) : t.pagesSafe := by
  cases h with
  | pages ps hcomplete => exact fun g hg => hcomplete g hg (hs g hg)
  | raised r =>
    exact State.pagesSafe_of_same (fun a => by rw [State.actuator_raised]) (by simp) (s.groupState_raised_off r) hs
  | captured trigger sweep =>
    exact State.pagesSafe_of_same (fun a => by rw [State.actuator_capture]) (by simp)
      (fun g => by rw [State.groupState_capture]) hs
  | actuators acts hgroup =>
    refine fun g hg => State.complete_iff.mpr fun a ha => ?_
    rcases hgroup a with e | ⟨-, hnew⟩
    · exact State.complete_iff.mp (hs g hg) a (e ▸ ha)
    · exact absurd (hnew g ha) hg
  | locks groups hstate =>
    exact State.pagesSafe_of_same (s := s) (fun _ => rfl) rfl (fun g => iff_of_eq (congrArg (· = GroupState.off) (hstate g))) hs
  | moved g st hfrom hoff =>
    exact State.pagesSafe_of_same (fun a => by rw [State.actuator_moveGroup]) (s.pages_moveGroup g st)
      (State.groupState_moved_off hfrom hoff) hs
  | stopped g =>
    intro k hk
    rw [State.groupState_moveGroup] at hk
    rw [State.complete_eq k (fun a => by rw [State.actuator_moveGroup]) (s.pages_moveGroup g .off), s.pages_moveGroup]
    split at hk
    · exact absurd rfl hk
    · exact hs k hk
  | engaged g hlatch hcomplete hseed =>
    intro k hk
    have hpages : (s.engage g).pages = s.pages := by rw [State.engage_leaves]
    rw [State.groupState_engage] at hk
    rw [State.complete_eq k (fun a => by rw [State.actuator_engage]) hpages, hpages]
    split at hk
    · next e => subst e; exact hcomplete
    · exact hs k hk
  | _ => exact hs

/-! ### Lanes and replies (R1, R4, R163) -/

theorem Lane.asserted_bounded (l : Lane) : l.asserted.bounded := ⟨Nat.zero_le _, Nat.zero_le _⟩

theorem ServiceHandler.asserted_bounded (v : ServiceHandler) : v.asserted.bounded := by
  unfold ServiceHandler.bounded ServiceHandler.asserted
  constructor
  · dsimp only
    split
    · simp only [List.length_map, List.length_take]; omega
    · exact Nat.zero_le _
  · intro h
    obtain ⟨hsending, hsome⟩ : v.replySending = true ∧ ¬v.replies = [] := by simpa using h
    dsimp only
    rw [if_pos hsending]
    cases hr : v.replies with
    | nil => exact absurd hr hsome
    | cons r rest => exact List.cons_ne_nil _ _

theorem Change.bounded {s t : State} (h : Change s t) (hs : s.bounded) : t.bounded := by
  rw [State.bounded_iff] at hs ⊢
  obtain ⟨hout, hret, hservice⟩ := hs
  cases h with
  | touch h =>
    have k := h.keeps
    unfold ServiceHandler.bounded
    rw [k.outLane, k.retLane, k.replies, k.replySending]
    exact ⟨hout, hret, hservice⟩
  | lane l f hbypass hbound =>
    cases l with
    | outbound => exact ⟨hbound hout, hret, hservice⟩
    | ret => exact ⟨hout, hbound hret, hservice⟩
  | service f hbound => exact ⟨hout, hret, hbound hservice⟩
  | unit u => exact ⟨hout, hret, hservice⟩
  | asserted => exact ⟨Lane.asserted_bounded _, Lane.asserted_bounded _, ServiceHandler.asserted_bounded _⟩

/-! ### Bypass (R151, R156) -/

theorem MarkerLine.atReset_of_capture {m : MarkerLine} (h : m = MarkerLine.atReset) :
    (if m.kind == .capture then { m with timer := some m.width } else m) = MarkerLine.atReset := by
  subst h
  rfl

theorem State.capture_markers {s : State} (trigger : Trigger) (sweep : Half)
    (hs : ∀ l, s.markers.entry l = MarkerLine.atReset) (l : Line) :
    (s.capture trigger sweep).markers.entry l = MarkerLine.atReset := by
  rcases s.capture_cases trigger sweep with ⟨-, e⟩ | ⟨-, e⟩ <;> rw [e]
  · rw [Vector.entry_alterAll]
    exact MarkerLine.atReset_of_capture (hs l)
  · exact hs l

theorem State.raised_markers {s : State} (r : Raise) (hs : ∀ l, s.markers.entry l = MarkerLine.atReset) (l : Line) :
    (s.raised r).markers.entry l = MarkerLine.atReset := by
  cases h : s.alarm.entry? r.source with
  | some e => rw [State.raised_of_entry (by simp [h])]; exact hs l
  | none =>
    rw [State.raised_of_none h]
    dsimp only
    split
    · exact State.capture_markers (s := (s.makeEntry r).withLocks _) _ _ hs l
    · exact hs l

/-- R151: in bypass every marker line has its reset condition. -/
def State.markersShut (s : State) : Prop := s.outLane.bypass = true → ∀ l : Line, s.markers.entry l = MarkerLine.atReset

/-- R156: in bypass the sweep watch and the generator have their reset values. -/
def State.watchShut (s : State) : Prop := s.outLane.bypass = true → s.watch = SweepWatch.atReset

theorem Touch.markersShut {s t : State} (h : Touch s t) (hs : s.markersShut) : t.markersShut := by
  intro hb
  rw [h.keeps.outLane] at hb
  replace hs := hs hb
  cases h with
  | raised r => exact State.raised_markers r hs
  | captured trigger sweep => exact State.capture_markers _ _ hs
  | markers ms hbypass => exact hbypass hb hs
  | moved g st => rwa [State.moveGroup_leaves]
  | stopped g => rwa [State.moveGroup_leaves]
  | engaged g => rwa [State.engage_leaves]
  | _ => exact hs

theorem Touch.watchShut {s t : State} (h : Touch s t) (hs : s.watchShut) : t.watchShut := by
  intro hb
  rw [h.keeps.outLane] at hb
  replace hs := hs hb
  cases h with
  | raised r => rwa [State.raised_watch]
  | captured trigger sweep => rwa [State.capture_watch]
  | watch f hbypass => exact hbypass hb hs
  | moved g st => rwa [State.moveGroup_leaves]
  | stopped g => rwa [State.moveGroup_leaves]
  | engaged g => rwa [State.engage_leaves]
  | _ => exact hs

theorem Change.shut {P : State → Prop} {s t : State} (h : Change s t) (htouch : Touch s t → P t)
    (hlane : ∀ (l : LaneId) (f : Lane → Lane), ((s.onLane l f).outLane.bypass = true → s.outLane.bypass = true) →
      P (s.onLane l f)) (hservice : ∀ f, P (s.onService f)) (hunit : ∀ u, P { s with unit := u })
    (hreset : P s.assertReset) : P t := by
  cases h with
  | touch h => exact htouch h
  | lane l f hbypass =>
    refine hlane l f ?_
    cases l with
    | outbound => exact hbypass
    | ret => exact id
  | service f => exact hservice f
  | unit u => exact hunit u
  | asserted => exact hreset

theorem Change.markersShut {s t : State} (h : Change s t) (hs : s.markersShut) : t.markersShut := by
  refine h.shut (fun h => h.markersShut hs) (fun l f hb hbypass => ?_) (fun _ => hs) (fun _ => hs)
    fun _ l => Vector.entry_fill _ _
  rw [State.onLane_markers]
  exact hs (hb hbypass)

theorem Change.watchShut {s t : State} (h : Change s t) (hs : s.watchShut) : t.watchShut := by
  refine h.shut (fun h => h.watchShut hs) (fun l f hb hbypass => ?_) (fun _ => hs) (fun _ => hs) fun _ => rfl
  rw [State.onLane_watch]
  exact hs (hb hbypass)

/-! ### Conditions of the blocks alone -/

/-- A condition that the lanes, the service handler and the reset unit do not bear on, that an assertion establishes and that
every `Touch` keeps, is kept by every step. -/
theorem step_keeps_of_touch {P : State → Prop} (hqueue : ∀ (s : State) (q : List Instr), P s → P { s with pending := q })
    (htouch : ∀ s t : State, Touch s t → P s → P t)
    (hlane : ∀ (s : State) (l : LaneId) (f : Lane → Lane), P s → P (s.onLane l f))
    (hservice : ∀ (s : State) (f : ServiceHandler → ServiceHandler), P s → P (s.onService f))
    (hunit : ∀ (s : State) (u : ResetUnit), P s → P { s with unit := u })
    (hreset : ∀ s : State, P s.assertReset) {s t : State} (hs : P s) (h : step s = .next t) : P t := by
  refine step_keeps hqueue (fun s t hc hs => ?_) hs h
  cases hc with
  | touch hc => exact htouch _ _ hc hs
  | lane l f => exact hlane s l f hs
  | service f => exact hservice s f hs
  | unit u => exact hunit s u hs
  | asserted => exact hreset s

end Sys2Proof.Machine

namespace Sys2Proof
open Sys2Proof.Machine

/-- Settles O5. -/
theorem stepKeepsMapOrdered : Obligations.StepKeepsMapOrdered := fun _ _ hs h =>
  step_keeps_of_touch (P := fun s => mapWf s.slotMap) (fun _ _ h => h) (fun _ _ hc h => hc.mapWf h)
    (fun _ l _ h => by cases l <;> exact h) (fun _ _ h => h) (fun _ _ h => h) (fun _ => ⟨.nil, List.nodup_nil⟩) hs h

/-- Settles O6. -/
theorem stepKeepsLatches : Obligations.StepKeepsLatches := fun _ _ hs h =>
  step_keeps_of_touch (P := State.latchSafe) (fun _ _ h => h) (fun _ _ hc h => hc.latchSafe h)
    (fun _ l _ h => by cases l <;> exact h) (fun _ _ h => h) (fun _ _ h => h) (fun _ => State.reset_latchSafe) hs h

/-- Settles O7. -/
theorem stepKeepsCaptureLog : Obligations.StepKeepsCaptureLog := fun _ _ hs h =>
  step_keeps_of_touch (P := fun s => s.captures.Wf) (fun _ _ h => h) (fun _ _ hc h => hc.captures_wf h)
    (fun _ l _ h => by cases l <;> exact h) (fun _ _ h => h) (fun _ _ h => h) (fun _ => State.reset_captures) hs h

/-- Settles O8. -/
theorem stepKeepsBounds : Obligations.StepKeepsBounds := fun _ _ hs h =>
  step_keeps (P := State.bounded) (fun _ _ h => h) (fun _ _ hc h => hc.bounded h) hs h

/-- Settles O9. -/
theorem stepKeepsAlarmTable : Obligations.StepKeepsAlarmTable := fun _ _ hs h =>
  step_keeps_of_touch (P := fun s => s.alarm.wf) (fun _ _ h => h) (fun _ _ hc h => hc.alarm_wf h)
    (fun _ l _ h => by cases l <;> exact h) (fun _ _ h => h) (fun _ _ h => h) (fun _ => State.reset_alarm) hs h

/-- Settles O10, for leads and for compensation channels apart. -/
theorem stepKeepsChainsShort : Obligations.StepKeepsChainsShort := fun s t hs h => by
  obtain ⟨hleads, hcomps⟩ := s.noChains_iff.mp hs
  refine t.noChains_iff.mpr ⟨?_, ?_⟩
  · exact step_keeps_of_touch (P := fun s => leadsShort s.interlock.groups) (fun _ _ h => h) (fun _ _ hc h => hc.leadsShort h)
      (fun _ l _ h => by cases l <;> exact h) (fun _ _ h => h) (fun _ _ h => h) (fun _ => State.reset_leads) hleads h
  · exact step_keeps_of_touch (P := fun s => compsShort s.strain) (fun _ _ h => h)
      (fun _ _ hc h => hc.strain_eq.elim (fun e => e ▸ h) fun k => k.2 h)
      (fun _ l _ h => by cases l <;> exact h) (fun _ _ h => h) (fun _ _ h => h) (fun _ => State.reset_comps) hcomps h

/-- Settles O11. -/
theorem stepKeepsEngageCounts : Obligations.StepKeepsEngageCounts := fun _ _ hs h =>
  step_keeps_of_touch (P := State.engageSafe) (fun _ _ h => h) (fun _ _ hc h => hc.engageSafe h)
    (fun _ l _ h => by cases l <;> exact h) (fun _ _ h => h) (fun _ _ h => h) (fun _ => State.reset_engageSafe) hs h

/-- Settles O12. -/
theorem stepKeepsStrainRuns : Obligations.StepKeepsStrainRuns := fun _ _ hs h =>
  step_keeps_of_touch (P := fun s => ∀ c, (s.strain.entry c).runWf) (fun _ _ h => h)
    (fun _ _ hc h c => hc.strain_eq.elim (fun e => e ▸ h c) fun k => k.1 c (h c))
    (fun _ l _ h => by cases l <;> exact h) (fun _ _ h => h) (fun _ _ h => h) (fun _ => State.reset_runWf) hs h

/-- Settles O13. -/
theorem stepKeepsOutputsWithGroups : Obligations.StepKeepsOutputsWithGroups := fun _ _ hs h =>
  step_keeps_of_touch (P := State.outputsFollow) (fun _ _ h => h) (fun _ _ hc h => hc.outputsFollow h)
    (fun _ l _ h => by cases l <;> exact h) (fun _ _ h => h) (fun _ _ h => h) (fun _ => State.reset_outputsFollow) hs h

/-- Settles O14. -/
theorem stepKeepsActivePagesComplete : Obligations.StepKeepsActivePagesComplete := fun _ _ hs h =>
  step_keeps_of_touch (P := State.pagesSafe) (fun _ _ h => h) (fun _ _ hc h => hc.pagesSafe h)
    (fun _ l _ h => by cases l <;> exact h) (fun _ _ h => h) (fun _ _ h => h) (fun _ => State.reset_pagesSafe) hs h

/-- Settles O2: no change touches the queue. -/
theorem everyCommandCompletes : Obligations.EveryCommandCompletes := fun c s => by
  obtain ⟨t, ht, hchanges⟩ := exec_changes c s
  exact ⟨t, ht, hchanges.pending⟩

/-- Settles O1. -/
theorem stepTakesFrontCommand : Obligations.StepTakesFrontCommand := by
  unfold Obligations.StepTakesFrontCommand step
  exact ⟨fun c rest s h => by rw [h], fun s h => by rw [h]⟩

/-- Settles O4. -/
theorem resetMeetsConditions : Obligations.ResetMeetsConditions :=
  ⟨⟨.nil, List.nodup_nil⟩, State.reset_latchSafe, State.reset_captures, State.reset_bounded, State.reset_alarm,
    State.reset.noChains_iff.mpr ⟨State.reset_leads, State.reset_comps⟩, State.reset_engageSafe, State.reset_outputsFollow,
    State.reset_pagesSafe, State.reset_runWf⟩

end Sys2Proof
end

section
/-! PROOF. What the argument words of the service items say: each word against the number, the sign, the flag, the code or the
place that it carries, read exactly where it was so written (Figures 2-11, 8-1, R166). -/

namespace Sys2Proof.Machine

open Sys2Proof

/-! ### Words against numbers -/

@[simp] theorem natWord_toNat_self (w : Word) : natWord w.toNat = w := by
  rw [natWord, BitVec.ofNat_toNat, BitVec.setWidth_eq]

theorem toNat_natWord {n : Nat} (h : n < 4294967296) : (natWord n).toNat = n := Nat.mod_eq_of_lt h

theorem toNat_eq_iff {w : Word} {n : Nat} (h : n < 4294967296) : w.toNat = n ↔ w = natWord n :=
  ⟨fun e => by rw [← e, natWord_toNat_self], fun e => by rw [e, toNat_natWord h]⟩

@[simp] theorem intWord_toInt_self (w : Word) : intWord w.toInt = w := BitVec.ofInt_toInt

theorem toInt_intWord {x : Int} (hl : -2147483648 ≤ x) (hh : x < 2147483648) : (intWord x).toInt = x := by
  rw [intWord, BitVec.toInt_ofInt]
  exact Int.bmod_eq_of_le (by omega) (by omega)

/-! ### Places -/

theorem numbered?_eq_some {n k : Nat} {i : Fin n} : numbered? n k = some i ↔ k = i.val + 1 := by
  refine ⟨fun h => ?_, numbered?_of_eq⟩
  unfold numbered? at h
  split at h
  case isTrue hk => simp only [Option.some.injEq, Fin.ext_iff] at h; omega
  case isFalse => exact nomatch h

theorem numbered?_eq_none {n k : Nat} : numbered? n k = none ↔ k = 0 ∨ n < k := by
  unfold numbered?
  split <;> simp <;> omega

theorem indexed?_eq_some {n k : Nat} {i : Fin n} : indexed? n k = some i ↔ k = i.val := by
  refine ⟨fun h => ?_, indexed?_of_eq⟩
  unfold indexed? at h
  split at h
  · simp only [Option.some.injEq, Fin.ext_iff] at h; exact h
  · exact nomatch h

theorem indexed?_eq_none {n k : Nat} : indexed? n k = none ↔ n ≤ k := by
  unfold indexed?
  split <;> simp <;> omega

theorem orNone?_eq_some {n k : Nat} {o : Option (Fin n)} : orNone? n k = some o ↔ k = numberOrZero o := by
  unfold orNone?
  split
  case isTrue hk => cases o <;> simp [numberOrZero, numberOf, hk]
  case isFalse hk =>
    cases o with
    | none => simp [numberOrZero, hk]
    | some i => simp [numberOrZero, numberOf, numbered?_eq_some]

theorem compensation?_eq_some {n : Nat} {o : Option (Fin 256)} :
    compensation? n = some o ↔ n = (o.map (·.val)).getD 65535 := by
  unfold compensation?
  split
  case isTrue hn =>
    cases o with
    | none => simp [hn]
    | some c => simp only [Option.some.injEq, Option.map_some, Option.getD_some, reduceCtorEq, false_iff]; omega
  case isFalse hn =>
    cases o with
    | none => simp [hn]
    | some c => simp [indexed?_eq_some]

/-- An index field of a thing numbered from 1, against its bounds. -/
theorem numbered?_index {n : Nat} {index : Half} :
    numbered? n index.toNat = none ↔ index = 0 ∨ n < index.toNat := by
  rw [numbered?_eq_none, ← BitVec.toNat_inj (y := 0)]
  rfl

theorem numbered?_isSome {n : Nat} {index : Half} (h0 : index ≠ 0) (hn : index.toNat ≤ n) :
    ∃ i : Fin n, numbered? n index.toNat = some i := by
  refine Option.ne_none_iff_exists'.1 (fun h => ?_)
  rcases numbered?_index.1 h with h | h
  · exact h0 h
  · omega

theorem indexed?_isSome {n : Nat} {k : Nat} (hn : k < n) : ∃ i : Fin n, indexed? n k = some i :=
  ⟨⟨k, hn⟩, indexed?_of_eq rfl⟩

/-! ### Codes -/

theorem action?_eq_some {n : Nat} {a : Action} : action? n = some a ↔ n = a.toCode := by
  unfold action?
  split <;> cases a <;> simp_all [Action.toCode]

theorem endAction?_eq_some {n : Nat} {a : EndAction} : endAction? n = some a ↔ n = a.toCode := by
  unfold endAction?
  split <;> cases a <;> simp_all [EndAction.toCode]

theorem mode?_eq_some {n : Nat} {m : Mode} : mode? n = some m ↔ n = m.toCode := by
  unfold mode?
  split <;> cases m <;> simp_all [Mode.toCode]

theorem crackKind?_eq_some {n : Nat} {k : CrackKind} : crackKind? n = some k ↔ n = k.toCode := by
  unfold crackKind?
  split <;> cases k <;> simp_all [CrackKind.toCode]

theorem markerKind?_eq_some {n : Nat} {k : MarkerKind} : markerKind? n = some k ↔ n = k.toCode := by
  unfold markerKind?
  split <;> cases k <;> simp_all [MarkerKind.toCode]

theorem flag?_eq_some {n : Nat} {b : Bool} : flag? n = some b ↔ n = b.toNat := by
  unfold flag?
  split <;> cases b <;> simp_all

theorem mask?_eq_some {n : Nat} {m : BitVec 6} : mask? n = some m ↔ n = m.toNat := by
  have hm : m.toNat < 64 := m.isLt
  unfold mask?
  split
  case isTrue hn =>
    rw [Option.some.injEq, ← BitVec.toNat_inj, BitVec.toNat_ofNat, Nat.mod_eq_of_lt (by omega)]
  case isFalse hn => simp only [reduceCtorEq, false_iff]; omega

theorem Action.toCode_lt (a : Action) : a.toCode < 4294967296 := by cases a <;> decide
theorem EndAction.toCode_lt (a : EndAction) : a.toCode < 4294967296 := by cases a <;> decide
theorem Mode.toCode_lt (m : Mode) : m.toCode < 4294967296 := by cases m <;> decide
theorem CrackKind.toCode_lt (k : CrackKind) : k.toCode < 4294967296 := by cases k <;> decide
theorem MarkerKind.toCode_lt (k : MarkerKind) : k.toCode < 4294967296 := by cases k <;> decide

theorem numberOrZero_le {n : Nat} (o : Option (Fin n)) : numberOrZero o ≤ n := by
  cases o with
  | none => exact Nat.zero_le n
  | some i => exact i.isLt

theorem boolWord_eq (b : Bool) : boolWord b = natWord b.toNat := by cases b <;> rfl

/-! ### A word read as what it was written for -/

theorem actionWord_iff {w : Word} {a : Action} : action? w.toNat = some a ↔ w = natWord a.toCode :=
  action?_eq_some.trans (toNat_eq_iff a.toCode_lt)

theorem endActionWord_iff {w : Word} {a : EndAction} : endAction? w.toNat = some a ↔ w = natWord a.toCode :=
  endAction?_eq_some.trans (toNat_eq_iff a.toCode_lt)

theorem modeWord_iff {w : Word} {m : Mode} : mode? w.toNat = some m ↔ w = natWord m.toCode :=
  mode?_eq_some.trans (toNat_eq_iff m.toCode_lt)

theorem crackKindWord_iff {w : Word} {k : CrackKind} : crackKind? w.toNat = some k ↔ w = natWord k.toCode :=
  crackKind?_eq_some.trans (toNat_eq_iff k.toCode_lt)

theorem markerKindWord_iff {w : Word} {k : MarkerKind} : markerKind? w.toNat = some k ↔ w = natWord k.toCode :=
  markerKind?_eq_some.trans (toNat_eq_iff k.toCode_lt)

theorem flagWord_iff {w : Word} {b : Bool} : flag? w.toNat = some b ↔ w = boolWord b := by
  rw [boolWord_eq]
  exact flag?_eq_some.trans (toNat_eq_iff (by cases b <;> decide))

theorem maskWord_iff {w : Word} {m : BitVec 6} : mask? w.toNat = some m ↔ w = natWord m.toNat :=
  mask?_eq_some.trans (toNat_eq_iff (Nat.lt_trans m.isLt (by decide)))

theorem orNoneWord_iff {n : Nat} (hn : n < 4294967296) {w : Word} {o : Option (Fin n)} :
    orNone? n w.toNat = some o ↔ w = natWord (numberOrZero o) :=
  orNone?_eq_some.trans (toNat_eq_iff (Nat.lt_of_le_of_lt (numberOrZero_le o) hn))

theorem indexedWord_iff {n : Nat} (hn : n < 4294967296) {w : Word} {i : Fin n} :
    indexed? n w.toNat = some i ↔ w = natWord i.val :=
  indexed?_eq_some.trans (toNat_eq_iff (Nat.lt_trans i.isLt hn))

theorem compensationWord_iff {w : Word} {o : Option (Fin 256)} :
    compensation? w.toNat = some o ↔ w = optWord (o.map (·.val)) 65535 := by
  refine compensation?_eq_some.trans (toNat_eq_iff ?_)
  cases o with
  | none => decide
  | some c => exact Nat.lt_trans c.isLt (by decide)

/-! ### The three forms of a write -/

theorem formOf_clear {α : Type} (read : List Word → Option α) : formOf read [] = .clear := rfl

theorem formOf_of_read {α : Type} {read : List Word → Option α} {args : List Word} {x : α} (hne : args ≠ [])
    (h : read args = some x) : formOf read args = .write x := by
  cases args with
  | nil => exact absurd rfl hne
  | cons w ws => simp only [formOf, h]

theorem formOf_bad {α : Type} {read : List Word → Option α} {args : List Word} (hne : args ≠ [])
    (h : ∀ x, read args ≠ some x) : formOf read args = .bad := by
  have hn : read args = none := Option.eq_none_iff_forall_ne_some.2 h
  cases args with
  | nil => exact absurd rfl hne
  | cons w ws => simp only [formOf, hn]

/-! ### The index field of two parts -/

theorem highPart_of_eq {index : Half} {i k : Nat} (h : index.toNat = 256 * i + k) (hk : k < 256) :
    highPart index = i := by
  unfold highPart
  omega

theorem lowPart_of_eq {index : Half} {i k : Nat} (h : index.toNat = 256 * i + k) (hk : k < 256) :
    lowPart index = k := by
  unfold lowPart
  omega

theorem index_eq_parts (index : Half) : index.toNat = 256 * highPart index + lowPart index :=
  (Nat.div_add_mod index.toNat 256).symm

end Sys2Proof.Machine
end

section
/-! PROOF. The service commands of the settings, the flags and the logs: PAGE, QUIET, FLOOR, CAPTURE_CFG, MARKER, WATCH, ACK,
CLEAR_FLAGS, RESTART, READ_RESET_CAUSE, READ_PENDING and READ_CAPTURE (R137, R138, R140, R142, R149, R150, R152, R161, R167,
R170, R172, R173). -/

namespace Sys2Proof.Machine

open Sys2Proof

/-! ### A command of its own, refused or answered -/

/-- R166: a command item that its rule refuses. -/
theorem exec_refused {c : Instr} {before : State} {code : Byte} {index : Half}
    {body : Option (Fin 4) → State → Answer} {result : ResultCode}
    (hc : exec c before = .next (before.finishBlock.command code index body))
    (h : body before.finishBlock.service.page (before.finishBlock.onService ServiceHandler.spent) =
      refuse (before.finishBlock.onService ServiceHandler.spent) result) :
    exec c before = .next (before.finishBlock.answered code index result []) :=
  hc.trans (congrArg _ (State.command_refused h))

/-- R166: a command item that gives OK and returns no words. -/
theorem exec_done {c : Instr} {before t : State} {code : Byte} {index : Half}
    {body : Option (Fin 4) → State → Answer}
    (hc : exec c before = .next (before.finishBlock.command code index body))
    (h : body before.finishBlock.service.page (before.finishBlock.onService ServiceHandler.spent) =
      done (t.onService ServiceHandler.spent))
    (hq : t.service.quiet = before.finishBlock.service.quiet) :
    exec c before = .next (t.answered code index .ok []) :=
  hc.trans (congrArg _ (State.command_done h hq))

/-- R166: a command item that gives OK and returns words. -/
theorem exec_words {c : Instr} {before t : State} {code : Byte} {index : Half}
    {body : Option (Fin 4) → State → Answer} {words : List Word}
    (hc : exec c before = .next (before.finishBlock.command code index body))
    (h : body before.finishBlock.service.page (before.finishBlock.onService ServiceHandler.spent) =
      answerWords (t.onService ServiceHandler.spent) words)
    (hq : t.service.quiet = before.finishBlock.service.quiet) :
    exec c before = .next (t.answered code index .ok words) :=
  hc.trans (congrArg _ (State.command_eq_answered h hq))

/-! ### The qualifiers (R167) -/

theorem itemPage_eq (index : Half) (args : List Word) (s : State) :
    itemPage index args s = s.onService (fun v =>
      if h : index.toNat ≤ 3 ∧ args = [] then { v with page := some ⟨index.toNat, by omega⟩ }
      else { v with results := v.results ++ [{ code := 0x01, result := .badValue, index := index, words := [] }] }) := by
  cases hp : indexed? 4 index.toNat with
  | none =>
    have hno : ¬(index.toNat ≤ 3 ∧ args = []) := fun h => by
      have := indexed?_eq_none.1 hp
      omega
    simp only [itemPage, hp, dif_neg hno]
    rfl
  | some p =>
    have hindex : index.toNat = p.val := indexed?_eq_some.1 hp
    cases args with
    | nil =>
      have h3 : index.toNat ≤ 3 := hindex ▸ Nat.le_of_lt_succ p.isLt
      rw [show p = ⟨index.toNat, Nat.lt_succ_of_le h3⟩ from Fin.ext hindex.symm] at hp
      simp only [itemPage, hp, h3, and_self, dite_true]
    | cons w ws =>
      simp only [itemPage, hp, reduceCtorEq, and_false, dif_neg, not_false_eq_true]
      rfl

theorem itemQuiet_eq (index : Half) (args : List Word) (s : State) :
    itemQuiet index args s = s.onService (fun v =>
      if index = 0 ∧ args = [] then { v with quiet := true }
      else { v with results := v.results ++ [{ code := 0x02, result := .badValue, index := index, words := [] }] }) := by
  unfold itemQuiet
  split <;> rfl

/-! ### Source numbers (Figure 8-1, R140) -/

theorem source?_eq_some {n : Nat} {src : Source} : source? n = some src ↔ n = src.number := by
  unfold source?
  split_ifs <;> cases src <;>
    simp [Source.number, numberOf, numbered?_eq_some, indexed?_eq_some] <;> omega

theorem ackSource?_eq_some {index : Half} {src : Source} : ackSource? index = some src ↔ index.toNat = src.number := by
  have hle := src.number_le
  unfold ackSource?
  split
  case isTrue => exact source?_eq_some
  case isFalse hn => simp only [Config.sourceMax] at hn; simp only [reduceCtorEq, false_iff]; omega

/-! ### The presentation order (R137) -/

/-- R137: an entry stands no later than another that it does not let outrank it. -/
theorem Entry.not_outranks_iff (e f : Entry) :
    ¬f.outranks e = true ↔ f.level < e.level ∨ (f.level = e.level ∧ e.source.number ≤ f.source.number) := by
  rw [Entry.outranks_iff]
  omega

theorem insertEntry_sorted {e : Entry} {l : List Entry} (hl : l.Pairwise (fun a b => ¬b.outranks a = true)) :
    (insertEntry e l).Pairwise (fun a b => ¬b.outranks a = true) := by
  induction l with
  | nil => simp [insertEntry]
  | cons f rest ih =>
    obtain ⟨hf, hrest⟩ := List.pairwise_cons.1 hl
    unfold insertEntry
    split
    case isTrue h =>
      refine List.pairwise_cons.2 ⟨fun x hx => ?_, hl⟩
      have hxf : ¬x.outranks f = true := by
        rcases List.mem_cons.1 hx with rfl | hx
        · rw [Entry.outranks_iff]; omega
        · exact hf x hx
      exact fun hxe => hxf (Entry.outranks_trans hxe h)
    case isFalse h =>
      refine List.pairwise_cons.2 ⟨fun x hx => ?_, ih hrest⟩
      rcases mem_insertEntry.1 hx with rfl | hx
      · exact h
      · exact hf x hx

theorem AlarmTable.order_sorted (t : AlarmTable) : t.order.Pairwise (fun a b => ¬b.outranks a = true) := by
  unfold AlarmTable.order
  induction t.entries with
  | nil => exact .nil
  | cons e rest ih => exact insertEntry_sorted ih

theorem AlarmTable.order_length (t : AlarmTable) : t.order.length = t.entries.length := by
  unfold AlarmTable.order
  induction t.entries with
  | nil => rfl
  | cons e rest ih => rw [List.foldr_cons, insertEntry_length, ih, List.length_cons]

/-- R137: where no source has two entries, none stands beside another of its own rank. -/
theorem AlarmTable.order_ordered {t : AlarmTable} (h : (t.entries.map (·.source)).Nodup) :
    t.order.Pairwise (fun a b => a.outranks b = true) := by
  unfold AlarmTable.order
  induction hl : t.entries generalizing t with
  | nil => exact .nil
  | cons e rest ih =>
    rw [hl, List.map_cons, List.nodup_cons] at h
    refine insertEntry_ordered (ih (t := { t with entries := rest }) h.2 rfl) fun f hf hsrc => h.1 ?_
    have hmem : f ∈ ({ t with entries := rest } : AlarmTable).order := hf
    exact hsrc ▸ List.mem_map_of_mem (AlarmTable.mem_order.1 hmem)

theorem AlarmTable.presented_eq_none {t : AlarmTable} :
    t.presented = none ↔ ∀ e ∈ t.entries, e.level ≤ t.floor := by
  simp [AlarmTable.presented, List.find?_eq_none, AlarmTable.mem_order]

theorem AlarmTable.presented_highest {t : AlarmTable} {e : Entry} (h : t.presented = some e) :
    t.floor < e.level ∧ ∀ f ∈ t.entries, t.floor < f.level → ¬f.outranks e = true := by
  obtain ⟨hlevel, before, after, horder, hbefore⟩ := List.find?_eq_some_iff_append.1 h
  refine ⟨of_decide_eq_true hlevel, fun f hf hfloor => ?_⟩
  have hsorted := t.order_sorted
  rw [horder] at hsorted
  have hmem : f ∈ before ++ e :: after := horder ▸ AlarmTable.mem_order.2 hf
  rcases List.mem_append.1 hmem with hf | hf
  · have := hbefore f hf
    simp [hfloor] at this
  · rcases List.mem_cons.1 hf with rfl | hf
    · rw [Entry.outranks_iff]; omega
    · exact (List.pairwise_cons.1 (List.pairwise_append.1 hsorted).2.1).1 f hf

end Sys2Proof.Machine

namespace Sys2Proof
open Sys2Proof.Machine

/-- Settles O38, by the order that insertion leaves and the first entry above the floor in it. -/
theorem presentedIsHighest : Obligations.PresentedIsHighest := by
  intro t
  have hsorted := t.order_sorted
  simp only [Entry.not_outranks_iff] at hsorted
  refine ⟨AlarmTable.presented_eq_none, fun e he => ?_, fun e => AlarmTable.mem_order, t.order_length, hsorted,
    fun hnodup => ?_⟩
  · obtain ⟨hfloor, hhighest⟩ := AlarmTable.presented_highest he
    exact ⟨AlarmTable.mem_of_presented he, hfloor, fun f hf hl => (Entry.not_outranks_iff e f).1 (hhighest f hf hl)⟩
  · refine (AlarmTable.order_ordered hnodup).imp fun {e f} h => ?_
    rcases (Entry.outranks_iff e f).1 h with h | ⟨hl, hn⟩
    · exact .inl h
    · exact .inr ⟨hl.symm, hn⟩

/-- Settles O45, by the checks of PAGE and of QUIET. -/
theorem qualifiersSet : Obligations.QualifiersSet := fun before index args =>
  ⟨congrArg Host.Outcome.next (itemPage_eq index args before.finishBlock),
    congrArg Host.Outcome.next (itemQuiet_eq index args before.finishBlock)⟩

end Sys2Proof
end

section
/-! PROOF. The service commands of the alarm table, the capture log, the flags and the reset cause: ACK, CLEAR_FLAGS, RESTART,
READ_RESET_CAUSE, READ_PENDING and READ_CAPTURE (R140, R142, R150, R170, R172, R173). -/

namespace Sys2Proof.Machine

open Sys2Proof

/-! ### The word of the reset cause record (R173) -/

theorem ResetUnit.causeWord_bits (u : ResetUnit) :
    u.causeWord.getLsbD 0 = u.causePower ∧ u.causeWord.getLsbD 1 = u.causeLine ∧
    u.causeWord.getLsbD 2 = u.causeService ∧ ∀ i : Nat, 3 ≤ i → u.causeWord.getLsbD i = false := by
  have hbits : u.causeWord = (BitVec.ofBool u.causeService ++ BitVec.ofBool u.causeLine ++
      BitVec.ofBool u.causePower).setWidth 32 := by
    unfold ResetUnit.causeWord
    cases u.causePower <;> cases u.causeLine <;> cases u.causeService <;> rfl
  rw [hbits]
  refine ⟨?_, ?_, ?_, fun i hi => ?_⟩
  · cases u.causePower <;> cases u.causeLine <;> cases u.causeService <;> rfl
  · cases u.causePower <;> cases u.causeLine <;> cases u.causeService <;> rfl
  · cases u.causePower <;> cases u.causeLine <;> cases u.causeService <;> rfl
  · rw [BitVec.getLsbD_setWidth, BitVec.getLsbD_of_ge _ _ hi, Bool.and_false]

/-! ### Six fields of four bits (R150) -/

theorem allGroups_eq : allGroups = [0, 1, 2, 3, 4, 5] := rfl
theorem sum_allGroups (h : Group → Nat) :
    allGroups.foldl (fun n g => n + h g) 0 = h 0 + h 1 + h 2 + h 3 + h 4 + h 5 := by
  rw [allGroups_eq]
  simp only [List.foldl_cons, List.foldl_nil, Nat.zero_add]

theorem shift_four (n : Nat) {g : Group} {i p : Nat} (hg : g.val = i) (hp : 2 ^ (4 * i) = p) :
    n * 2 ^ (4 * g.val) = n * p := by rw [hg, hp]

theorem nibbles_eq (f : Group → Nat) :
    nibbles f = natWord (f 0 + f 1 * 16 + f 2 * 256 + f 3 * 4096 + f 4 * 65536 + f 5 * 1048576) := by
  rw [nibbles, sum_allGroups (fun g => f g * 2 ^ (4 * g.val)), shift_four (f 0) (i := 0) (p := 1) rfl rfl,
    shift_four (f 1) (i := 1) (p := 16) rfl rfl, shift_four (f 2) (i := 2) (p := 256) rfl rfl,
    shift_four (f 3) (i := 3) (p := 4096) rfl rfl, shift_four (f 4) (i := 4) (p := 65536) rfl rfl,
    shift_four (f 5) (i := 5) (p := 1048576) rfl rfl, Nat.mul_one]

/-! ### The parts of a capture record (R150) -/

theorem capturePart?_eq_some {part : Nat} (h : part ≤ 5) (remove : Bool) :
    capturePart? (BitVec.ofNat 16 (part + if remove = true then 256 else 0)) = some (part, remove) := by
  have hn : (BitVec.ofNat 16 (part + if remove = true then 256 else 0)).toNat =
      part + if remove = true then 256 else 0 := Nat.mod_eq_of_lt (by split <;> omega)
  unfold capturePart?
  rw [hn]
  cases remove
  · simp [h]
  · have hge : ¬part + 256 ≤ 5 := by omega
    simp [h, hge]

theorem capturePart?_eq_none {index : Half} :
    capturePart? index = none ↔ ¬(index.toNat ≤ 5 ∨ (256 ≤ index.toNat ∧ index.toNat ≤ 261)) := by
  unfold capturePart?
  split_ifs with h1 h2 <;> simp_all

theorem triggerWords_eq (x : Trigger) : triggerWords x = match x with
    | .raised src seq => [0, natWord src.number, seq.setWidth 32, 0]
    | .block g => [1, 65535, 0, natWord (g.val + 1)]
    | .manual => [2, 65535, 0, 0] := by
  cases x with
  | raised src seq => simp only [triggerWords, natWord, BitVec.ofNat_toNat]
  | block g => rfl
  | manual => rfl

end Sys2Proof.Machine

namespace Sys2Proof
open Sys2Proof.Machine

/-- Settles O26, by what each kind of reset sets and by the two checks of READ_RESET_CAUSE. -/
theorem resetCauseRecord : Obligations.ResetCauseRecord := by
  unfold Obligations.ResetCauseRecord
  refine ⟨?_, ?_, ?_, ?_, ?_, ?_⟩
  · rintro s _ ⟨⟩
    exact ⟨rfl, rfl, rfl⟩
  · intro s t hline h
    have ht : s.lineAssert = t := Host.Outcome.next.inj h
    rw [State.lineAssert, hline] at ht
    subst ht
    exact ⟨rfl, rfl, rfl⟩
  · intro s t r rest hsending hreplies hrestart hpending h
    have ht : s.replySent = t := Host.Outcome.next.inj h
    simp only [State.replySent, hsending, hreplies, hrestart, hpending, Bool.and_self, if_true] at ht
    subst ht
    exact ⟨rfl, rfl, rfl⟩
  · intro before index args s hindex
    exact exec_refused rfl (by simp only [readResetCauseBody, bareRefusal_of_index hindex])
  · intro before args s hargs
    exact exec_refused rfl (by simp only [readResetCauseBody, bareRefusal_of_args hargs])
  · intro before s
    obtain ⟨hpower, hline, hservice, hrest⟩ := s.unit.causeWord_bits
    exact ⟨s.unit.causeWord, hpower, hline, hservice, hrest, exec_words (t := s.clearCause) rfl rfl rfl⟩

/-- Settles O55, by the checks of each command and what it writes. -/
theorem ackClearFlagsRestart : Obligations.AckClearFlagsRestart := by
  unfold Obligations.AckClearFlagsRestart
  refine ⟨?_, ?_, ?_⟩
  · intro before src s index
    have hsrc : ackSource? index = some src :=
      ackSource?_eq_some.2 (Nat.mod_eq_of_lt (Nat.lt_of_le_of_lt src.number_le (by decide)))
    cases hentry : s.alarm.entry? src with
    | none =>
      rw [if_neg (by simpa using AlarmTable.entry?_eq_none.1 hentry)]
      exact exec_refused rfl (by simp [ackBody, hsrc, s, hentry])
    | some e =>
      have hex : ∃ e ∈ s.alarm.entries, e.source = src := by
        by_contra hno
        exact nomatch hentry.symm.trans (AlarmTable.entry?_eq_none.2 fun e he h => hno ⟨e, he, h⟩)
      rw [if_pos hex]
      exact exec_done (t := { s with alarm := s.alarm.without src }) rfl (by simp [ackBody, hsrc, s, hentry]; rfl) rfl
  · intro before s
    exact ⟨exec_done (t := s.clearFlags) rfl rfl rfl,
      exec_done (t := s.onService (fun v => { v with restartPending := true, frameEnded := true })) rfl rfl rfl⟩
  · intro before index args s ack others
    refine ⟨fun h => ?_, fun src h hargs => ?_, fun h => ⟨?_, ?_⟩, fun h hargs => ⟨?_, ?_⟩⟩
    · have hnone : ackSource? index = none :=
        Option.eq_none_iff_forall_ne_some.2 fun src hs => h src (ackSource?_eq_some.1 hs)
      exact exec_refused rfl (by simp only [ackBody, hnone])
    · exact exec_refused rfl (by simp only [ackBody, ackSource?_eq_some.2 h, if_pos hargs])
    · exact exec_refused rfl (by simp only [clearFlagsBody, bareRefusal_of_index h])
    · exact exec_refused rfl (by simp only [restartBody, bareRefusal_of_index h])
    · subst h
      exact exec_refused rfl (by simp only [clearFlagsBody, bareRefusal_of_args hargs])
    · subst h
      exact exec_refused rfl (by simp only [restartBody, bareRefusal_of_args hargs])

/-- Settles O56, by the checks of READ_PENDING in their order and the presentation order. -/
theorem readPendingReturnsEntry : Obligations.ReadPendingReturnsEntry := by
  intro before index args s
  have hsorted := s.alarm.order_sorted
  simp only [Entry.not_outranks_iff] at hsorted
  refine ⟨?_, by rw [List.getElem?_eq_none_iff, AlarmTable.order_length], fun hfloor hlevels => ?_, hsorted⟩
  · split_ifs with hindex hargs
    · exact exec_refused rfl (by simp only [readPendingBody, if_pos hindex])
    · exact exec_refused rfl (by simp only [readPendingBody, if_neg hindex, if_pos hargs])
    · cases he : s.alarm.order[index.toNat]? with
      | none => exact exec_refused rfl (by simp [readPendingBody, hindex, hargs, s, he])
      | some e =>
        exact exec_words (t := s) rfl
          (by simp [readPendingBody, hindex, hargs, s, he, entryWords, natWord, BitVec.ofNat_toNat]) rfl
  · unfold AlarmTable.presented
    have hall : ∀ e ∈ s.alarm.order, s.alarm.floor < e.level := fun e he => by
      have := hlevels e (AlarmTable.mem_order.1 he)
      omega
    cases horder : s.alarm.order with
    | nil => rfl
    | cons e rest =>
      have := hall e (horder ▸ List.mem_cons_self)
      simp [this]

/-- Settles O58, by the part that the index names and the checks of READ_CAPTURE in their order. -/
theorem readCaptureReturnsOldest : Obligations.ReadCaptureReturnsOldest := by
  unfold Obligations.ReadCaptureReturnsOldest
  constructor
  · intro before r rest part remove s hqueue hpart index packed pairs words
    have hwords : r.part (rest.length + 1) part = words := by
      have hcases : part = 0 ∨ part = 1 ∨ part = 2 ∨ part = 3 ∨ part = 4 ∨ part = 5 := by omega
      rcases hcases with rfl | rfl | rfl | rfl | rfl | rfl
      · simp only [words, CaptureRecord.part, triggerWords_eq, nibbles_eq, natWord, BitVec.ofNat_toNat]
        rfl
      all_goals rfl
    have hindex : capturePart? index = some (part, remove) := capturePart?_eq_some hpart remove
    rw [← hwords]
    refine exec_words rfl ?_ ?_
    · cases remove <;> simp [readCaptureBody, hindex, s, hqueue, State.dropCapture, answerWords]; rfl
    · cases remove <;> rfl
  · intro before index args s named refused
    refine ⟨fun h => ?_, fun h hargs => ?_, fun h hargs hqueue => ?_⟩
    · exact exec_refused rfl (by simp only [readCaptureBody, capturePart?_eq_none.2 h])
    · obtain ⟨x, hx⟩ := Option.ne_none_iff_exists'.1 (fun hn => capturePart?_eq_none.1 hn h)
      exact exec_refused rfl (by simp only [readCaptureBody, hx, if_pos hargs])
    · obtain ⟨x, hx⟩ := Option.ne_none_iff_exists'.1 (fun hn => capturePart?_eq_none.1 hn h)
      subst hargs
      exact exec_refused rfl (by simp [readCaptureBody, hx, s, hqueue])

end Sys2Proof
end

section
/-! PROOF. The records and settings that argument words carry: each reader of a record answers exactly where the words are those
of a record within its ranges, and then that record (R50, R56, R57, R64, R89, R91, R97, R104, R116, R127, R138, R149, R152,
R161). -/

namespace Sys2Proof.Machine

open Sys2Proof

/-! ### Settings of the logs, the marker lines and the sweep watch (R138, R149, R152, R161) -/

theorem floor?_eq_some {args : List Word} {f : Nat} : floor? args = some f ↔ args = [natWord f] ∧ f ≤ 7 := by
  constructor
  · intro h
    unfold floor? at h
    split at h
    · split at h
      · cases h
        simpa
      · exact nomatch h
    · exact nomatch h
  · rintro ⟨rfl, hf⟩
    simp only [floor?, toNat_natWord (show f < 4294967296 by omega), if_pos hf]

theorem watchList?_eq_some {args : List Word} {cs : List (Fin 256)} :
    watchList? args = some cs ↔ args = cs.map (fun c => natWord c.val) ∧ cs.Nodup := by
  induction args generalizing cs with
  | nil => cases cs <;> simp [watchList?]
  | cons w rest ih =>
    unfold watchList?
    split
    case h_1 c ds hc hds =>
      obtain ⟨rfl, hnodup⟩ := ih.1 hds
      obtain rfl := (indexedWord_iff (by decide)).1 hc
      split
      case isTrue hmem =>
        simp only [reduceCtorEq, false_iff]
        rintro ⟨hargs, hcs⟩
        cases cs with
        | nil => exact nomatch hargs
        | cons c' cs' =>
          obtain ⟨hhead, htail⟩ := List.cons.inj hargs
          have hc' : some c = some c' := hc.symm.trans ((indexedWord_iff (by decide)).2 hhead)
          have hds' : some ds = some cs' := hds.symm.trans (ih.2 ⟨htail, (List.nodup_cons.1 hcs).2⟩)
          cases hc'
          cases hds'
          exact (List.nodup_cons.1 hcs).1 hmem
      case isFalse hmem =>
        rw [Option.some.injEq]
        refine ⟨by rintro rfl; simp [hmem, hnodup], ?_⟩
        rintro ⟨hargs, hcs⟩
        cases cs with
        | nil => exact nomatch hargs
        | cons c' cs' =>
          obtain ⟨hhead, htail⟩ := List.cons.inj hargs
          have hc' : some c = some c' := hc.symm.trans ((indexedWord_iff (by decide)).2 hhead)
          have hds' : some ds = some cs' := hds.symm.trans (ih.2 ⟨htail, (List.nodup_cons.1 hcs).2⟩)
          cases hc'
          cases hds'
          rfl
    case h_2 hno =>
      simp only [reduceCtorEq, false_iff]
      rintro ⟨hargs, hcs⟩
      cases cs with
      | nil => exact nomatch hargs
      | cons c' cs' =>
        obtain ⟨hhead, htail⟩ := List.cons.inj hargs
        exact hno c' cs' ((indexedWord_iff (by decide)).2 hhead) (ih.2 ⟨htail, (List.nodup_cons.1 hcs).2⟩)

theorem captureSettings?_eq_some {args : List Word} {mark : Nat} {cs : List (Fin 256)} :
    captureSettings? args = some (mark, cs) ↔ args = natWord mark :: cs.map (fun c => natWord c.val) ∧
      1 ≤ mark ∧ mark ≤ 32 ∧ cs.length ≤ 4 ∧ cs.Nodup := by
  constructor
  · intro h
    obtain ⟨⟨hlow, hhigh⟩, hlength, hnodup⟩ := captureSettings?_spec h
    refine ⟨?_, hlow, hhigh, hlength, hnodup⟩
    unfold captureSettings? at h
    split at h
    · exact nomatch h
    · split at h
      · exact nomatch h
      · next hcs =>
        split at h
        · cases h
          simp [(watchList?_eq_some.1 hcs).1]
        · exact nomatch h
  · rintro ⟨rfl, hlow, hhigh, hlength, hnodup⟩
    simp only [captureSettings?, watchList?_eq_some.2 ⟨rfl, hnodup⟩, toNat_natWord (show mark < 4294967296 by omega),
      List.length_map, Config.captureRoom]
    exact if_pos ⟨hlength, hlow, hhigh⟩

theorem markerSettings?_eq_some {args : List Word} {m : MarkerLine} :
    markerSettings? args = some m ↔
      args = [natWord m.kind.toCode, natWord m.group, natWord m.width, boolWord m.activeLow] ∧
      m.group ≤ 6 ∧ (m.kind.namesGroup = true → m.group ≠ 0) ∧ 1 ≤ m.width ∧ m.width ≤ 255 ∧ m.timer = none := by
  constructor
  · intro h
    unfold markerSettings? at h
    split at h
    case h_1 kd g w pol =>
      split at h
      case h_1 kind low hk hl =>
        split at h
        case isTrue hin =>
          cases h
          obtain rfl := markerKindWord_iff.1 hk
          obtain rfl := flagWord_iff.1 hl
          simpa using hin
        case isFalse => exact nomatch h
      case h_2 => exact nomatch h
    case h_2 => exact nomatch h
  · rintro ⟨rfl, hg, hn, hw, hw', ht⟩
    simp only [markerSettings?, markerKindWord_iff.2 rfl, flagWord_iff.2 rfl,
      toNat_natWord (show m.group < 4294967296 by omega), toNat_natWord (show m.width < 4294967296 by omega)]
    exact (if_pos ⟨hg, hn, hw, hw'⟩).trans (by rw [← ht])

theorem watchSettings?_eq_some {args : List Word} {c : WatchSettings} :
    watchSettings? args = some c ↔
      args = [natWord c.interval, natWord c.action.toCode, natWord c.level, boolWord c.enable, natWord c.period] ∧
      2 ≤ c.interval ∧ c.interval ≤ 250 ∧ c.action ≠ .note ∧ 1 ≤ c.level ∧ c.level ≤ 7 ∧ 250 ≤ c.period ∧
      c.period ≤ 10000 ∧ c.period % 50 = 0 := by
  constructor
  · intro h
    unfold watchSettings? at h
    split at h
    case h_1 iv ac lv en pd =>
      split at h
      case h_1 act on ha ho =>
        split at h
        case isTrue hin =>
          cases h
          obtain rfl := actionWord_iff.1 ha
          obtain rfl := flagWord_iff.1 ho
          simpa using hin
        case isFalse => exact nomatch h
      case h_2 => exact nomatch h
    case h_2 => exact nomatch h
  · rintro ⟨rfl, hi, hi', hact, hl, hl', hp, hp', hmod⟩
    simp only [watchSettings?, actionWord_iff.2 rfl, flagWord_iff.2 rfl,
      toNat_natWord (show c.interval < 4294967296 by omega), toNat_natWord (show c.level < 4294967296 by omega),
      toNat_natWord (show c.period < 4294967296 by omega)]
    exact if_pos ⟨hi, hi', hact, hl, hl', hp, hp', hmod⟩

/-! ### Records of the interlock (R89, R91) -/

theorem actuatorFields?_eq_some {args : List Word} {f : ActuatorFields} :
    actuatorFields? args = some f ↔ args = [natWord (numberOrZero f.group), intWord f.floor, natWord f.level] ∧
      -400000 ≤ f.floor ∧ f.floor ≤ 400000 ∧ 1 ≤ f.level ∧ f.level ≤ 7 := by
  constructor
  · intro h
    unfold actuatorFields? at h
    split at h
    case h_1 g u l =>
      split at h
      case h_1 => exact nomatch h
      case h_2 group hg =>
        split at h
        case isTrue hin =>
          cases h
          obtain rfl := (orNoneWord_iff (by decide)).1 hg
          simpa [Config.forceMax] using hin
        case isFalse => exact nomatch h
    case h_2 => exact nomatch h
  · rintro ⟨rfl, hu, hu', hl, hl'⟩
    simp only [actuatorFields?, (orNoneWord_iff (n := 6) (by decide)).2 rfl,
      toInt_intWord (show -2147483648 ≤ f.floor by omega) (by omega), toNat_natWord (show f.level < 4294967296 by omega)]
    exact if_pos ⟨hu, hu', hl, hl'⟩

theorem groupRecord?_eq_some {args : List Word} {r : GroupRecord} :
    groupRecord? args = some r ↔
      args = [natWord r.unloadRate, natWord r.engageInterval, natWord (numberOrZero r.lead), natWord r.sumLevel,
        natWord r.blockLevel] ∧
      1 ≤ r.unloadRate ∧ r.unloadRate ≤ 65535 ∧ 1 ≤ r.engageInterval ∧ r.engageInterval ≤ 255 ∧
      1 ≤ r.sumLevel ∧ r.sumLevel ≤ 7 ∧ 1 ≤ r.blockLevel ∧ r.blockLevel ≤ 7 := by
  constructor
  · intro h
    unfold groupRecord? at h
    split at h
    case h_1 ru ei ld sl bl =>
      split at h
      case h_1 => exact nomatch h
      case h_2 lead hlead =>
        split at h
        case isTrue hin =>
          cases h
          obtain rfl := (orNoneWord_iff (by decide)).1 hlead
          simpa using hin
        case isFalse => exact nomatch h
    case h_2 => exact nomatch h
  · rintro ⟨rfl, hu, hu', he, he', hs, hs', hb, hb'⟩
    simp only [groupRecord?, (orNoneWord_iff (n := 6) (by decide)).2 rfl,
      toNat_natWord (show r.unloadRate < 4294967296 by omega), toNat_natWord (show r.engageInterval < 4294967296 by omega),
      toNat_natWord (show r.sumLevel < 4294967296 by omega), toNat_natWord (show r.blockLevel < 4294967296 by omega)]
    exact if_pos ⟨hu, hu', he, he', hs, hs', hb, hb'⟩

/-! ### Pages, schedules and pending pages (R56 to R58, R64) -/

theorem groupPart?_eq_some {args : List Word} {x : Nat × Nat} :
    groupPart? args = some x ↔ args = [natWord x.1, natWord x.2] ∧ x.1 ≤ 16384 ∧ x.2 ≤ 6400000 := by
  constructor
  · intro h
    unfold groupPart? at h
    split at h
    · split at h
      case isTrue hin =>
        cases h
        simpa [Config.stepMax, Config.sumLimitMax] using hin
      case isFalse => exact nomatch h
    · exact nomatch h
  · rintro ⟨rfl, hstep, hlimit⟩
    simp only [groupPart?, toNat_natWord (show x.1 < 4294967296 by omega),
      toNat_natWord (show x.2 < 4294967296 by omega)]
    exact if_pos ⟨hstep, hlimit⟩

theorem pageEntry?_eq_some {args : List Word} {e : PageEntry} :
    pageEntry? args = some e ↔
      args = [natWord e.mode.toCode, intWord e.mean, natWord e.amplitude, natWord e.offset.toNat,
        natWord e.shape.val, intWord e.fmin, intWord e.fmax, natWord e.slew] ∧
      -400000 ≤ e.mean ∧ e.mean ≤ 400000 ∧ e.amplitude ≤ 200000 ∧ -400000 ≤ e.fmin ∧ e.fmin ≤ e.fmax ∧
      e.fmax ≤ 400000 ∧ 1 ≤ e.slew ∧ e.slew ≤ 65535 := by
  constructor
  · intro h
    unfold pageEntry? at h
    split at h
    case h_1 m mean amp off sh lo hi r =>
      split at h
      case h_1 mode shape hm hs =>
        split at h
        case isTrue hin =>
          cases h
          obtain rfl := modeWord_iff.1 hm
          obtain rfl := (indexedWord_iff (by decide)).1 hs
          obtain ⟨hmean, hmean', hamp, hoff, hlo, -, -, hhi, horder, hr, hr'⟩ := hin
          have hoffset : (BitVec.ofNat 16 off.toNat).toNat = off.toNat := Nat.mod_eq_of_lt (by omega)
          simp only [hoffset, natWord_toNat_self, intWord_toInt_self, true_and]
          exact ⟨hmean, hmean', hamp, hlo, horder, hhi, hr, hr'⟩
        case isFalse => exact nomatch h
      case h_2 => exact nomatch h
    case h_2 => exact nomatch h
  · rintro ⟨rfl, hmean, hmean', hamp, hlo, horder, hhi, hr, hr'⟩
    have hoff : e.offset.toNat ≤ 65535 := Nat.le_of_lt_succ e.offset.isLt
    simp only [pageEntry?, modeWord_iff.2 rfl, (indexedWord_iff (n := 4) (by decide)).2 rfl,
      toInt_intWord (show -2147483648 ≤ e.mean by omega) (by omega), toNat_natWord (show e.amplitude < 4294967296 by omega),
      toNat_natWord (show e.offset.toNat < 4294967296 by omega), toInt_intWord (show -2147483648 ≤ e.fmin by omega) (by omega),
      toInt_intWord (show -2147483648 ≤ e.fmax by omega) (by omega), toNat_natWord (show e.slew < 4294967296 by omega),
      BitVec.ofNat_toNat, BitVec.setWidth_eq]
    exact if_pos ⟨hmean, hmean', hamp, hoff, hlo, by simp only [Config.forceMax]; omega,
      by simp only [Config.forceMax]; omega, hhi, horder, hr, hr'⟩

theorem commitPage?_eq_some {args : List Word} {p : Fin 4} : commitPage? args = some p ↔ args = [natWord p.val] := by
  unfold commitPage?
  split
  · rw [indexedWord_iff (by decide), List.singleton_inj]
  · next hno =>
    simp only [reduceCtorEq, false_iff]
    exact hno _

theorem blockEntry?_eq_some {args : List Word} {e : BlockEntry} :
    blockEntry? args = some e ↔ args = [natWord e.target, natWord e.page.val, natWord e.endAction.toCode] ∧
      1 ≤ e.target ∧ e.target ≤ 16777215 := by
  constructor
  · intro h
    unfold blockEntry? at h
    split at h
    case h_1 target page act =>
      split at h
      case h_1 p e' hp he =>
        split at h
        case isTrue hin =>
          cases h
          obtain rfl := (indexedWord_iff (by decide)).1 hp
          obtain rfl := endActionWord_iff.1 he
          simpa [Config.blockMax] using hin
        case isFalse => exact nomatch h
      case h_2 => exact nomatch h
    case h_2 => exact nomatch h
  · rintro ⟨rfl, hlow, hhigh⟩
    simp only [blockEntry?, (indexedWord_iff (n := 4) (by decide)).2 rfl, endActionWord_iff.2 rfl,
      toNat_natWord (show e.target < 4294967296 by omega)]
    exact if_pos ⟨hlow, hhigh⟩

end Sys2Proof.Machine
end

section
/-! PROOF. FLOOR, CAPTURE_CFG, MARKER and WATCH write their settings or refuse (R138, R149, R152, R161). -/

namespace Sys2Proof.Machine

open Sys2Proof

/-- R161: the settings written, by whether the generator has to stop or to start. -/
theorem SweepWatch.configure_eq (w : SweepWatch) (c : WatchSettings) :
    w.configure c =
      if c.enable = false ∧ w.originating = true then
        { w with settings := c, originating := false, standTimer := none }
      else if c.enable = true ∧ w.originating = false ∧ w.state = .expired then
        { w with
          settings := c, originating := true, standTimer := some c.period, lastOriginated := w.lastController }
      else { w with settings := c } := by
  unfold SweepWatch.configure SweepWatch.endOrigination SweepWatch.startOrigination
  cases c.enable <;> cases w.originating <;> simp

/-- R151, R156: in bypass neither MARKER nor WATCH reaches its block. -/
theorem exec_marker_bypass {before : State} (h : before.finishBlock.outLane.bypass = true) (index : Half)
    (args : List Word) : exec (.marker index args) before = .next before.finishBlock :=
  congrArg Host.Outcome.next (if_pos h)

theorem exec_watch_bypass {before : State} (h : before.finishBlock.outLane.bypass = true) (index : Half)
    (args : List Word) : exec (.watch index args) before = .next before.finishBlock :=
  congrArg Host.Outcome.next (if_pos h)

theorem exec_marker {before : State} (h : before.finishBlock.outLane.bypass = false) (index : Half)
    (args : List Word) : exec (.marker index args) before =
      .next (before.finishBlock.command 0x1C index (fun _ s => markerBody index args s)) :=
  congrArg Host.Outcome.next (if_neg (Bool.not_eq_true _ ▸ h))

theorem exec_watch {before : State} (h : before.finishBlock.outLane.bypass = false) (index : Half)
    (args : List Word) : exec (.watch index args) before =
      .next (before.finishBlock.command 0x1D index (fun _ s => watchBody index args s)) :=
  congrArg Host.Outcome.next (if_neg (Bool.not_eq_true _ ▸ h))

end Sys2Proof.Machine

namespace Sys2Proof
open Sys2Proof.Machine

/-- Settles O54, by the settings that the words carry and, where they carry none, by the index and the words. -/
theorem settingsWritten : Obligations.SettingsWritten := by
  unfold Obligations.SettingsWritten
  refine ⟨?_, ?_, ?_, ?_, ?_, ?_⟩
  · intro before f s hf
    exact exec_done rfl (by simp only [floorBody, floor?_eq_some.2 ⟨rfl, hf⟩]; rfl) rfl
  · intro before mark cs args s hlow hhigh hlength hnodup hargs
    refine exec_done (t := s.setCapture mark cs) rfl ?_ rfl
    rcases hargs with rfl | ⟨rfl, rfl, rfl⟩
    · have hread := captureSettings?_eq_some.2 ⟨rfl, hlow, hhigh, hlength, hnodup⟩
      simp only [captureCfgBody, formOf_of_read (List.cons_ne_nil _ _) hread]
      rfl
    · rfl
  · intro before index l m args s hbypass hindex hgroup hnames hlow hhigh htimer hargs
    refine exec_done (t := s.onMarker l (fun _ => m)) (exec_marker hbypass index args) ?_ rfl
    rcases hargs with rfl | ⟨rfl, rfl⟩
    · have hread := markerSettings?_eq_some.2 ⟨rfl, hgroup, hnames, hlow, hhigh, htimer⟩
      simp only [markerBody, numbered?_of_eq hindex, formOf_of_read (List.cons_ne_nil _ _) hread]
      rfl
    · simp only [markerBody, numbered?_of_eq hindex]
      rfl
  · exact fun before index args hbypass => ⟨exec_marker_bypass hbypass index args, exec_watch_bypass hbypass index args⟩
  · intro before c args s hbypass hi hi' hact hl hl' hp hp' hmod hargs
    simp only [← SweepWatch.configure_eq]
    refine exec_done (t := s.onWatch (fun w => w.configure c)) (exec_watch hbypass 0 args) ?_ rfl
    rcases hargs with rfl | ⟨rfl, rfl⟩
    · have hread := watchSettings?_eq_some.2 ⟨rfl, hi, hi', hact, hl, hl', hp, hp', hmod⟩
      simp only [watchBody, formOf_of_read (List.cons_ne_nil _ _) hread]
      rfl
    · rfl
  · intro before index args s floor capture marker watch
    refine ⟨fun h => ⟨?_, ?_⟩, fun h => ⟨fun hargs => ?_, fun hne hargs => ?_⟩, fun hbypass => ⟨fun h => ?_,
      fun h0 h4 hne hargs => ?_, fun h => ?_, fun h hne hargs => ?_⟩⟩
    · exact exec_refused rfl (by simp only [floorBody, if_pos h])
    · exact exec_refused rfl (by simp only [captureCfgBody, if_pos h])
    · have hnone : floor? args = none :=
        Option.eq_none_iff_forall_ne_some.2 fun f hf =>
          have ⟨hwords, hle⟩ := floor?_eq_some.1 hf
          hargs f hle hwords
      subst h
      exact exec_refused rfl (by simp only [floorBody, hnone]; rfl)
    · have hbad : formOf captureSettings? args = .bad := formOf_bad hne fun x hx =>
        have ⟨hwords, hlow, hhigh, hlength, hnodup⟩ := captureSettings?_eq_some.1 hx
        hargs x.1 x.2 hlow hhigh hlength hnodup hwords
      subst h
      exact exec_refused rfl (by simp only [captureCfgBody, hbad]; rfl)
    · exact exec_refused (exec_marker hbypass index args) (by simp only [markerBody, numbered?_index.2 h])
    · obtain ⟨l, hl⟩ := numbered?_isSome h0 h4
      have hbad : formOf markerSettings? args = .bad := formOf_bad hne fun m hm =>
        have ⟨hwords, hgroup, hnames, hlow, hhigh, _⟩ := markerSettings?_eq_some.1 hm
        hargs m hgroup hnames hlow hhigh hwords
      exact exec_refused (exec_marker hbypass index args) (by simp only [markerBody, hl, hbad])
    · exact exec_refused (exec_watch hbypass index args) (by simp only [watchBody, if_pos h])
    · have hbad : formOf watchSettings? args = .bad := formOf_bad hne fun c hc =>
        have ⟨hwords, hi, hi', hact, hl, hl', hp, hp', hmod⟩ := watchSettings?_eq_some.1 hc
        hargs c hi hi' hact hl hl' hp hp' hmod hwords
      subst h
      exact exec_refused (exec_watch hbypass 0 args) (by simp only [watchBody, hbad]; rfl)

end Sys2Proof
end

section
/-! PROOF. The commands of the interlock: ACTUATOR, GROUP, RELEASE, HOLD, UNLOAD and DISENGAGE, with their checks in order (R72,
R76 to R81, R86, R89, R91). -/

namespace Sys2Proof.Machine

open Sys2Proof

/-! ### Moves by a command (R25, R74, R79 to R81, R86) -/

theorem Vector.alter_congr {α : Type} {n : Nat} {v : Vector α n} {i : Fin n} {f k : α → α}
    (h : f (v.entry i) = k (v.entry i)) : v.alter i f = v.alter i k := by
  refine Vector.ext_entry fun j => ?_
  rw [Vector.entry_alter, Vector.entry_alter]
  split
  · next hj => rw [hj, h]
  · rfl

theorem State.onLock_congr {s : State} {g : Group} {f k : GroupLock → GroupLock} (h : f (s.lock g) = k (s.lock g)) :
    s.onLock g f = s.onLock g k := by
  have hgroups := Vector.alter_congr (v := s.interlock.groups) h
  unfold State.onLock
  rw [hgroups]

theorem State.moveGroup_onService (s : State) (g : Group) (st : GroupState) (f : ServiceHandler → ServiceHandler) :
    (s.onService f).moveGroup g st = (s.moveGroup g st).onService f := by
  unfold State.moveGroup
  split <;> rfl

theorem State.commandMove_onService (s : State) (g : Group) (st : GroupState) (f : ServiceHandler → ServiceHandler) :
    (s.onService f).commandMove g st = (s.commandMove g st).onService f := by
  unfold State.commandMove
  rw [State.moveGroup_onService]
  rfl

@[simp] theorem State.moveGroup_service (s : State) (g : Group) (st : GroupState) :
    (s.moveGroup g st).service = s.service := by
  unfold State.moveGroup
  split <;> rfl

@[simp] theorem State.commandMove_service (s : State) (g : Group) (st : GroupState) :
    (s.commandMove g st).service = s.service := State.moveGroup_service s g st

/-- R86: a command that moves a group to a state other than OFF. -/
theorem State.commandMove_of_ne_off (s : State) (g : Group) {st : GroupState} (h : st ≠ .off) :
    s.commandMove g st = s.onLock g (fun l =>
      { l with
        state := st, engageCount := 0, reportDue := false
        cause := some { cause := .command, source := none, sweep := s.shaper.lastTaken } }) := by
  rw [State.commandMove, State.moveGroup_of_ne_off s g h, State.writeCause, State.onLock_onLock]
  rfl

/-- R25, R74: a group taken to OFF, with the hold cause that it then has. -/
def State.stopped (s : State) (g : Group) (cause : Option HoldCause) : State :=
  ((s.onLock g (fun l => { l with state := .off, engageCount := 0, reportDue := false, cause := cause })).onOutputs
    (fun a o => if (s.actuator a).group = some g then { o with kept := none, hold := none } else o)).onShape g
      (fun x => { x with lastShaped := some .off })

/-- R25: the outputs that a group taken to OFF loses, whatever its hold cause. -/
theorem State.stopped_eq (s : State) (g : Group) (cause : Option HoldCause) :
    s.stopped g cause = (s.onLock g (fun l =>
      { l with state := .off, engageCount := 0, reportDue := false, cause := cause })).discardOutputs g := by
  unfold State.stopped State.discardOutputs
  simp only [beq_iff_eq]
  rfl

theorem State.moveGroup_off (s : State) (g : Group) : s.moveGroup g .off = s.stopped g (s.lock g).cause := by
  have hlock : s.onLock g (fun l =>
      { l with state := .off, engageCount := 0, reportDue := false, cause := (s.lock g).cause }) =
      s.onLock g (fun l => { l with state := .off, engageCount := 0, reportDue := false }) := State.onLock_congr rfl
  rw [State.stopped_eq, hlock]
  rfl

theorem State.commandMove_off (s : State) (g : Group) : s.commandMove g .off =
    s.stopped g (some { cause := .command, source := none, sweep := s.shaper.lastTaken }) := by
  rw [State.stopped_eq]
  have hlock := State.onLock_onLock s g (fun l => { l with state := .off, engageCount := 0, reportDue := false })
    (fun l => { l with cause := some { cause := .command, source := none, sweep := s.shaper.lastTaken } })
  simp only at hlock
  rw [← hlock]
  rfl

/-! ### RELEASE (R76 to R78) -/

theorem GroupState.isMoving_iff (st : GroupState) :
    st.isMoving = true ↔ st = .engaging ∨ st = .run ∨ st = .unload := by
  cases st <;> simp [GroupState.isMoving]

theorem State.members_isEmpty {s : State} {g : Group} :
    (s.members g).isEmpty = true ↔ ∀ a : Actuator, (s.actuator a).group ≠ some g := by
  simp only [List.isEmpty_iff, List.eq_nil_iff_forall_not_mem, State.mem_members, ne_eq]

theorem State.not_complete {s : State} {g : Group} {p : Fin 4} :
    (!s.complete g p) = true ↔
      ∃ a : Actuator, (s.actuator a).group = some g ∧ (s.page g p).entries.entry a = none := by
  rw [Bool.not_eq_true', ← Bool.not_eq_true, State.complete_iff]
  simp

/-- R76: the third to seventh check of RELEASE, in their order. -/
theorem State.releaseRefusal_eq (s : State) (g : Group) : s.releaseRefusal g =
    if s.groupState g = .engaging ∨ s.groupState g = .run ∨ s.groupState g = .unload then some .state
    else if ∃ e ∈ s.alarm.entries, e.action ≠ .note ∧ e.mask.getLsbD g.val = true then some .latched
    else if ∀ a : Actuator, (s.actuator a).group ≠ some g then some .empty
    else if ∃ a : Actuator, (s.actuator a).group = some g ∧ (s.activePage g).entries.entry a = none then
      some .incomplete
    else if s.groupState g = .off ∧ ∃ a : Actuator, (s.actuator a).group = some g ∧ (s.actuator a).seed = none then
      some .noFeedback
    else none := by
  have hseeds : (s.members g).any (fun a => (s.actuator a).seed.isNone) = true ↔
      ∃ a : Actuator, (s.actuator a).group = some g ∧ (s.actuator a).seed = none := by
    simp [State.mem_members]
  unfold State.releaseRefusal State.activePage
  simp only [GroupState.isMoving_iff, AlarmTable.latches_iff, State.members_isEmpty, State.not_complete, hseeds]

/-- R77: the group as RELEASE from OFF leaves it. -/
theorem State.engage_eq (s : State) (g : Group) : s.engage g =
    ((s.onLock g (fun l => { l with state := .engaging, engageCount := 0, reportDue := false })).onShape g
      (fun x => { x with theta := 0 })).onOutputs (fun a o =>
        if (s.actuator a).group = some g then { o with kept := (s.actuator a).seed } else o) := by
  unfold State.engage State.takeSeeds
  rw [State.moveGroup_of_ne_off s g (by decide)]
  simp only [beq_iff_eq]
  rfl

theorem exec_release_refused {before : State} {index : Half} {g : Group} {code : ResultCode}
    (hindex : index.toNat = g.val + 1) (h : before.finishBlock.releaseRefusal g = some code) :
    exec (.release index []) before = .next (before.finishBlock.answered 0x21 index code []) := by
  have hspent : (before.finishBlock.onService ServiceHandler.spent).releaseRefusal g = some code := h
  exact exec_refused rfl (by simp [releaseBody, numbered?_of_eq hindex, hspent])

theorem exec_release_done {before : State} {index : Half} {g : Group} (hindex : index.toNat = g.val + 1)
    (h : before.finishBlock.releaseRefusal g = none) :
    exec (.release index []) before = .next ((before.finishBlock.releaseGroup g).answered 0x21 index .ok []) := by
  have hspent : (before.finishBlock.onService ServiceHandler.spent).releaseRefusal g = none := h
  have hgroup (s : State) (f : ServiceHandler → ServiceHandler) :
      (s.onService f).releaseGroup g = (s.releaseGroup g).onService f := by
    unfold State.releaseGroup State.engage
    simp only [State.moveGroup_onService]
    split
    · next hoff => rw [if_pos (show s.groupState g = .off from hoff)]; rfl
    · next hoff => rw [if_neg (show s.groupState g ≠ .off from hoff)]
  have hservice : (before.finishBlock.releaseGroup g).service = before.finishBlock.service := by
    unfold State.releaseGroup State.engage State.takeSeeds
    split <;> simp
  exact exec_done rfl (by simp [releaseBody, numbered?_of_eq hindex, hspent, hgroup]) (by rw [hservice])

/-! ### Records of actuators and groups (R72, R89, R91) -/

theorem State.active?_iff {s : State} {o : Option Group} :
    s.active? o = true ↔ ∃ g : Group, o = some g ∧ s.groupState g ≠ .off := by
  cases o <;> simp [State.active?]

theorem GroupState.holdsRecord_iff (st : GroupState) :
    st.holdsRecord = true ↔ st ≠ .off ∧ st ≠ .rest := by
  cases st <;> simp [GroupState.holdsRecord]

theorem State.leadChain_iff {s : State} {g : Group} {lead : Option Group} : s.leadChain g lead = true ↔
    (∃ h : Group, lead = some h ∧ (h = g ∨ s.lead h ≠ none)) ∨ ∃ h : Group, h ≠ g ∧ s.lead h = some g := by
  have hled : allGroups.any (fun h => h != g && s.lead h == some g) = true ↔ ∃ h : Group, h ≠ g ∧ s.lead h = some g := by
    simp [allGroups, -List.ofFn_succ]
  unfold State.leadChain
  rw [Bool.or_eq_true, hled]
  cases lead <;> simp [Option.isSome_iff_ne_none]

theorem State.writeActuator_eq (s : State) (a : Actuator) (f : ActuatorFields) : s.writeActuator a f =
    if ∃ g : Group, ((s.actuator a).group = some g ∨ f.group = some g) ∧ s.groupState g ≠ .off then refuse s .state
    else done (s.onActuator a (fun x => { x with group := f.group, floor := f.floor, level := f.level })) := by
  unfold State.writeActuator
  simp only [Bool.or_eq_true, State.active?_iff, ← exists_or, ← or_and_right]

theorem State.writeGroup_eq (s : State) (g : Group) (r : GroupRecord) : s.writeGroup g r =
    if s.groupState g ≠ .off ∧ s.groupState g ≠ .rest then refuse s .state
    else if r.lead = s.lead g then done (s.onLock g (fun l => { l with record := r }))
    else if s.groupState g ≠ .off ∨ ∃ h : Group, (s.lead g = some h ∨ r.lead = some h) ∧ s.groupState h ≠ .off then
      refuse s .state
    else if (∃ h : Group, r.lead = some h ∧ (h = g ∨ s.lead h ≠ none)) ∨ ∃ h : Group, h ≠ g ∧ s.lead h = some g then
      refuse s .chain
    else done ((s.onLock g (fun l => { l with record := r })).onCycles g (fun c => { c with block := 0 })) := by
  unfold State.writeGroup
  simp only [GroupState.holdsRecord_iff, Bool.or_eq_true, State.active?_iff, State.leadChain_iff, or_assoc,
    or_and_right, exists_or, Option.some.injEq, exists_eq_left']

end Sys2Proof.Machine

namespace Sys2Proof
open Sys2Proof.Machine

/-- Settles O47, by the state of the group and, before it, by the index and the words. -/
theorem holdUnloadDisengage : Obligations.HoldUnloadDisengage := by
  unfold Obligations.HoldUnloadDisengage
  refine ⟨?_, ?_, ?_⟩
  · intro before index g s hindex moved
    have hnumber := numbered?_of_eq hindex
    have hmoved (st : GroupState) (h : st ≠ .off) : moved st = s.commandMove g st :=
      (s.commandMove_of_ne_off g h).symm
    constructor
    · cases hstate : s.groupState g with
      | engaging | run =>
        rw [hmoved _ (by decide)]
        exact exec_done rfl
          (by simp [holdBody, hnumber, s, hstate, State.commandMove_onService]) (by rw [State.commandMove_service])
      | hold => exact exec_done rfl (by simp [holdBody, hnumber, s, hstate]) rfl
      | unload | rest | off => exact exec_refused rfl (by simp [holdBody, hnumber, s, hstate])
    · cases hstate : s.groupState g with
      | engaging | run | hold =>
        rw [hmoved _ (by decide)]
        exact exec_done rfl
          (by simp [unloadBody, hnumber, s, hstate, State.commandMove_onService]) (by rw [State.commandMove_service])
      | unload => exact exec_done rfl (by simp [unloadBody, hnumber, s, hstate]) rfl
      | rest | off => exact exec_refused rfl (by simp [unloadBody, hnumber, s, hstate])
  · intro before index g s hindex off
    have hnumber := numbered?_of_eq hindex
    cases hstate : s.groupState g with
    | engaging =>
      exact exec_done (t := s.stopped g _) rfl
        (by simp [disengageBody, hnumber, s, hstate, State.commandMove_off]; rfl) rfl
    | hold | rest =>
      exact exec_done (t := s.stopped g _) rfl
        (by simp [disengageBody, hnumber, s, hstate, State.moveGroup_off]; rfl) rfl
    | off => exact exec_done rfl (by simp [disengageBody, hnumber, s, hstate]) rfl
    | run | unload => exact exec_refused rfl (by simp [disengageBody, hnumber, s, hstate])
  · intro before index args s refused
    refine ⟨fun h => ?_, fun h0 h6 hargs => ?_⟩
    · have hnumber := numbered?_index.2 h
      exact ⟨exec_refused rfl (by simp only [holdBody, hnumber]), exec_refused rfl (by simp only [unloadBody, hnumber]),
        exec_refused rfl (by simp only [disengageBody, hnumber])⟩
    · obtain ⟨g, hg⟩ := numbered?_isSome h0 h6
      exact ⟨exec_refused rfl (by simp only [holdBody, hg, if_pos hargs]),
        exec_refused rfl (by simp only [unloadBody, hg, if_pos hargs]),
        exec_refused rfl (by simp only [disengageBody, hg, if_pos hargs])⟩

/-- Settles O48, by the checks of RELEASE in their order and the two moves past them. -/
theorem releaseChecksAndMoves : Obligations.ReleaseChecksAndMoves := by
  unfold Obligations.ReleaseChecksAndMoves
  constructor
  · intro before index args s refused
    refine ⟨fun h => ?_, fun h0 h6 hargs => ?_⟩
    · exact exec_refused rfl (by simp only [releaseBody, numbered?_index.2 h])
    · obtain ⟨g, hg⟩ := numbered?_isSome h0 h6
      exact exec_refused rfl (by simp only [releaseBody, hg, if_pos hargs])
  · intro before index g s hindex
    have hrefusal := s.releaseRefusal_eq g
    split_ifs with hmoving hlatched hempty hincomplete hoff hseed
    · exact exec_release_refused hindex (hrefusal.trans (if_pos hmoving))
    · rw [if_neg hmoving, if_pos hlatched] at hrefusal
      exact exec_release_refused hindex hrefusal
    · rw [if_neg hmoving, if_neg hlatched, if_pos hempty] at hrefusal
      exact exec_release_refused hindex hrefusal
    · rw [if_neg hmoving, if_neg hlatched, if_neg hempty, if_pos hincomplete] at hrefusal
      exact exec_release_refused hindex hrefusal
    · rw [if_neg hmoving, if_neg hlatched, if_neg hempty, if_neg hincomplete, if_pos ⟨hoff, hseed⟩] at hrefusal
      exact exec_release_refused hindex hrefusal
    · rw [if_neg hmoving, if_neg hlatched, if_neg hempty, if_neg hincomplete, if_neg fun h => hseed h.2] at hrefusal
      rw [← State.engage_eq, ← show s.releaseGroup g = s.engage g from if_pos hoff]
      exact exec_release_done hindex hrefusal
    · rw [if_neg hmoving, if_neg hlatched, if_neg hempty, if_neg hincomplete, if_neg fun h => hoff h.1] at hrefusal
      rw [← State.moveGroup_of_ne_off s g (st := .run) (by decide),
        ← show s.releaseGroup g = s.moveGroup g .run from if_neg hoff]
      exact exec_release_done hindex hrefusal

/-- Settles O49, by the checks of ACTUATOR and of GROUP in their order. -/
theorem interlockRecordsWritten : Obligations.InterlockRecordsWritten := by
  unfold Obligations.InterlockRecordsWritten
  refine ⟨?_, ?_, ?_⟩
  · intro before index a group floor level args s hindex hlow hhigh hl hl' hargs
    have hbody (t : State) : actuatorBody index args t =
        t.writeActuator a { group := group, floor := floor, level := level } := by
      rcases hargs with rfl | ⟨rfl, rfl, rfl, rfl⟩
      · have hread := (actuatorFields?_eq_some (f := { group := group, floor := floor, level := level })).2
          ⟨rfl, hlow, hhigh, hl, hl'⟩
        simp only [actuatorBody, numbered?_of_eq hindex, formOf_of_read (List.cons_ne_nil _ _) hread]
      · simp only [actuatorBody, numbered?_of_eq hindex, formOf_clear]
        rfl
    split_ifs with hactive
    · exact exec_refused rfl ((hbody _).trans ((State.writeActuator_eq _ _ _).trans (if_pos hactive)))
    · exact exec_done (t := s.onActuator a (fun x => { x with group := group, floor := floor, level := level })) rfl
        ((hbody _).trans ((State.writeActuator_eq _ _ _).trans (if_neg hactive))) rfl
  · intro before index g r args s hindex hu hu' he he' hs hs' hb hb' hargs
    have hbody (t : State) : groupBody index args t = t.writeGroup g r := by
      rcases hargs with rfl | ⟨rfl, rfl⟩
      · have hread := groupRecord?_eq_some.2 ⟨rfl, hu, hu', he, he', hs, hs', hb, hb'⟩
        simp only [groupBody, numbered?_of_eq hindex, formOf_of_read (List.cons_ne_nil _ _) hread]
      · simp only [groupBody, numbered?_of_eq hindex, formOf_clear]
        rfl
    have hwrite := (s.onService ServiceHandler.spent).writeGroup_eq g r
    split_ifs with hheld hsame hactive hchain
    · exact exec_refused rfl ((hbody _).trans (hwrite.trans (if_pos hheld)))
    · exact exec_done (t := s.onLock g (fun l => { l with record := r })) rfl
        ((hbody _).trans (hwrite.trans ((if_neg hheld).trans (if_pos hsame)))) rfl
    · exact exec_refused rfl
        ((hbody _).trans (hwrite.trans ((if_neg hheld).trans ((if_neg hsame).trans (if_pos hactive)))))
    · exact exec_refused rfl ((hbody _).trans
        (hwrite.trans ((if_neg hheld).trans ((if_neg hsame).trans ((if_neg hactive).trans (if_pos hchain))))))
    · exact exec_done
        (t := (s.onLock g (fun l => { l with record := r })).onCycles g (fun c => { c with block := 0 })) rfl
        ((hbody _).trans
          (hwrite.trans ((if_neg hheld).trans ((if_neg hsame).trans ((if_neg hactive).trans (if_neg hchain)))))) rfl
  · intro before index args s actuator group
    refine ⟨fun h => ?_, fun h => ?_, fun h0 h16 hne hargs => ?_, fun h0 h6 hne hargs => ?_⟩
    · exact exec_refused rfl (by simp only [actuatorBody, numbered?_index.2 h])
    · exact exec_refused rfl (by simp only [groupBody, numbered?_index.2 h])
    · obtain ⟨a, ha⟩ := numbered?_isSome h0 h16
      have hbad : formOf actuatorFields? args = .bad := formOf_bad hne fun f hf =>
        have ⟨hwords, hlow, hhigh, hl, hl'⟩ := actuatorFields?_eq_some.1 hf
        hargs f.group f.floor f.level hlow hhigh hl hl' hwords
      exact exec_refused rfl (by simp only [actuatorBody, ha, hbad])
    · obtain ⟨g, hg⟩ := numbered?_isSome h0 h6
      have hbad : formOf groupRecord? args = .bad := formOf_bad hne fun r hr =>
        have ⟨hwords, hu, hu', he, he', hs, hs', hb, hb'⟩ := groupRecord?_eq_some.1 hr
        hargs r hu hu' he he' hs hs' hb hb' hwords
      exact exec_refused rfl (by simp only [groupBody, hg, hbad])

end Sys2Proof
end

section
/-! PROOF. PAGE_GROUP, PAGE_ACT, COMMIT and SHAPE: pages and shape tables written under their protection (R50, R51, R55 to
R58). -/

namespace Sys2Proof.Machine

open Sys2Proof

/-! ### Pages written under their protection (R55 to R57) -/

/-- R55: a page written, or refused by its protection. -/
def State.guardPage (s : State) (g : Group) (p : Fin 4) (f : Page → Page) : Answer :=
  match s.pageProtection g p with
  | some c => refuse s c
  | none => done (s.onPage g p f)

/-- R55: what a write to a page answers, by whether the page is pending and whether it is in use. -/
theorem exec_guardPage {c : Instr} {before : State} {code : Byte} {index : Half} {g : Group} {p : Fin 4}
    {f : Page → Page} {body : Option (Fin 4) → State → Answer}
    (hc : exec c before = .next (before.finishBlock.command code index body))
    (h : body before.finishBlock.service.page (before.finishBlock.onService ServiceHandler.spent) =
      (before.finishBlock.onService ServiceHandler.spent).guardPage g p f) :
    exec c before = .next
      (if (before.finishBlock.pages.entry g).pendingPage = some p then
        before.finishBlock.answered code index .pagePending []
      else if (before.finishBlock.pages.entry g).active = p ∧ before.finishBlock.groupState g ≠ .off then
        before.finishBlock.answered code index .pageActive []
      else
        (before.finishBlock.onPages g (fun y => { y with pages := y.pages.alter p f })).answered code index .ok []) := by
  have hprotection : (before.finishBlock.onService ServiceHandler.spent).pageProtection g p =
      if (before.finishBlock.pages.entry g).pendingPage = some p then some .pagePending
      else if (before.finishBlock.pages.entry g).active = p ∧ before.finishBlock.groupState g ≠ .off then
        some .pageActive
      else none := rfl
  split_ifs with hpending hactive
  · rw [if_pos hpending] at hprotection
    exact exec_refused hc (h.trans (by simp only [State.guardPage, hprotection]))
  · rw [if_neg hpending, if_pos hactive] at hprotection
    exact exec_refused hc (h.trans (by simp only [State.guardPage, hprotection]))
  · rw [if_neg hpending, if_neg hactive] at hprotection
    exact exec_done hc (h.trans (by simp only [State.guardPage, hprotection]; rfl)) rfl

/-- R57: the group and the actuator that an index names. -/
theorem numbered?_parts {index : Half} {g : Group} {a : Actuator}
    (h : index.toNat = 256 * (g.val + 1) + (a.val + 1)) :
    numbered? 6 (highPart index) = some g ∧ numbered? 16 (lowPart index) = some a :=
  ⟨numbered?_of_eq (highPart_of_eq h (by omega)), numbered?_of_eq (lowPart_of_eq h (by omega))⟩

end Sys2Proof.Machine

namespace Sys2Proof
open Sys2Proof.Machine

/-- Settles O50, by the page of the qualifier, the part that the index names and what the words carry. -/
theorem pagesWritten : Obligations.PagesWritten := by
  unfold Obligations.PagesWritten
  constructor
  · intro before g p s hpage guarded
    have hpage' : before.finishBlock.service.page = some p := hpage
    refine ⟨fun index step limit hindex hstep hlimit => ?_, fun index hindex => ?_,
      fun index a e hindex hmean hmean' hamp hlo horder hhi hr hr' => ?_, fun index a hindex => ?_⟩
    · have hread := (groupPart?_eq_some (x := (step, limit))).2 ⟨rfl, hstep, hlimit⟩
      refine exec_guardPage (g := g) (p := p) rfl ?_
      simp only [pageGroupBody, hpage', numbered?_of_eq hindex, formOf_of_read (List.cons_ne_nil _ _) hread]
      rfl
    · refine exec_guardPage (g := g) (p := p) rfl ?_
      simp only [pageGroupBody, hpage', numbered?_of_eq hindex, formOf_clear]
      rfl
    · have hread := pageEntry?_eq_some.2 ⟨rfl, hmean, hmean', hamp, hlo, horder, hhi, hr, hr'⟩
      obtain ⟨hg, ha⟩ := numbered?_parts hindex
      refine exec_guardPage (g := g) (p := p) rfl ?_
      simp only [pageActBody, hpage', hg, ha, formOf_of_read (List.cons_ne_nil _ _) hread]
      rfl
    · obtain ⟨hg, ha⟩ := numbered?_parts hindex
      refine exec_guardPage (g := g) (p := p) rfl ?_
      simp only [pageActBody, hpage', hg, ha, formOf_clear]
      rfl
  · intro before index args s group act
    refine ⟨fun hpage => ?_, fun hpage => ?_⟩
    · have hpage' : before.finishBlock.service.page = none := hpage
      exact ⟨exec_refused rfl (by simp only [pageGroupBody, hpage']),
        exec_refused rfl (by simp only [pageActBody, hpage'])⟩
    · obtain ⟨p, hp⟩ := Option.ne_none_iff_exists'.1 hpage
      have hp' : before.finishBlock.service.page = some p := hp
      refine ⟨fun h => ?_, fun h0 h6 hne hargs => ?_, fun h => ?_, fun g a hindex hne hargs => ?_⟩
      · exact exec_refused rfl (by simp only [pageGroupBody, hp', numbered?_index.2 h])
      · obtain ⟨g, hg⟩ := numbered?_isSome h0 h6
        have hbad : formOf groupPart? args = .bad := formOf_bad hne fun x hx =>
          have ⟨hwords, hstep, hlimit⟩ := groupPart?_eq_some.1 hx
          hargs x.1 x.2 hstep hlimit hwords
        exact exec_refused rfl (by simp only [pageGroupBody, hp', hg, hbad])
      · refine exec_refused rfl ?_
        cases hg : numbered? 6 (highPart index) with
        | none => simp only [pageActBody, hp', hg]
        | some g =>
          cases ha : numbered? 16 (lowPart index) with
          | none => simp only [pageActBody, hp', hg, ha]
          | some a =>
            have hparts := index_eq_parts index
            rw [numbered?_eq_some.1 hg, numbered?_eq_some.1 ha] at hparts
            exact absurd hparts (h g a)
      · obtain ⟨hg, ha⟩ := numbered?_parts hindex
        have hbad : formOf pageEntry? args = .bad := formOf_bad hne fun e he =>
          have ⟨hwords, hmean, hmean', hamp, hlo, horder, hhi, hr, hr'⟩ := pageEntry?_eq_some.1 he
          hargs e hmean hmean' hamp hlo horder hhi hr hr' hwords
        exact exec_refused rfl (by simp only [pageActBody, hp', hg, ha, hbad])

end Sys2Proof
end

section
/-! PROOF. COMMIT and SHAPE: a page made pending, and the sixteen entries of a shape table that eight words carry (R50, R51,
R58). -/

namespace Sys2Proof.Machine

open Sys2Proof

/-! ### Entries of a shape table, two to a word (R50) -/

theorem toInt_ofInt_half {x : Int} (hl : -32768 ≤ x) (hh : x ≤ 32767) : (BitVec.ofInt 16 x).toInt = x := by
  rw [BitVec.toInt_ofInt]
  exact Int.bmod_eq_of_le (by omega) (by omega)

theorem extract_pair (hi lo : BitVec 16) :
    (hi ++ lo).extractLsb' 0 16 = lo ∧ (hi ++ lo).extractLsb' 16 16 = hi := by
  constructor
  · refine BitVec.eq_of_getLsbD_eq fun i hlt => ?_
    rw [BitVec.getLsbD_extractLsb', Nat.zero_add, BitVec.getLsbD_append, if_pos hlt, decide_eq_true hlt, Bool.true_and]
  · refine BitVec.eq_of_getLsbD_eq fun i hlt => ?_
    rw [BitVec.getLsbD_extractLsb', BitVec.getLsbD_append, if_neg (by omega), decide_eq_true hlt, Bool.true_and,
      Nat.add_sub_cancel_left]

theorem shapePair_packPair {x y : Int} (hx : -32767 ≤ x ∧ x ≤ 32767) (hy : -32767 ≤ y ∧ y ≤ 32767) :
    shapePair (packPair x y) = [x, y] := by
  unfold shapePair packPair
  rw [(extract_pair _ _).1, (extract_pair _ _).2, toInt_ofInt_half (by omega) hx.2, toInt_ofInt_half (by omega) hy.2]

theorem packPair_of_shapePair {w : Word} {x y : Int} (h : shapePair w = [x, y]) : w = packPair x y := by
  simp only [shapePair, List.cons.injEq, and_true] at h
  obtain ⟨rfl, rfl⟩ := h
  unfold packPair
  rw [BitVec.ofInt_toInt, BitVec.ofInt_toInt]
  refine BitVec.eq_of_getLsbD_eq fun i hlt => ?_
  rw [BitVec.getLsbD_append]
  split
  · simp [*]
  · next hge =>
    have hlow : i - 16 < 16 := by omega
    simp [hlow, Nat.add_sub_cancel' (Nat.le_of_not_lt hge)]

/-- The sixteen entries that a numbering of them gives. -/
theorem shapeEntries?_pairs {e : Fin 16 → Int} (he : ∀ i, -32767 ≤ e i ∧ e i ≤ 32767) :
    shapeEntries? [packPair (e 0) (e 1), packPair (e 2) (e 3), packPair (e 4) (e 5), packPair (e 6) (e 7),
      packPair (e 8) (e 9), packPair (e 10) (e 11), packPair (e 12) (e 13), packPair (e 14) (e 15)] =
      some (List.ofFn e) := by
  have hlist : List.ofFn e = [e 0, e 1, e 2, e 3, e 4, e 5, e 6, e 7, e 8, e 9, e 10, e 11, e 12, e 13, e 14, e 15] := rfl
  have hall : (List.ofFn e).all (fun x => x != -32768) = true := by
    simp only [List.all_eq_true, List.mem_ofFn, forall_exists_index, forall_apply_eq_imp_iff, bne_iff_ne]
    intro i hi
    have := he i
    omega
  unfold shapeEntries?
  simp only [List.map_cons, List.map_nil, shapePair_packPair (he _) (he _), List.flatten_cons, List.flatten_nil,
    List.cons_append, List.nil_append, ← hlist, hall, List.length_cons, List.length_nil]
  rfl

/-- R50: the words of a SHAPE in range are eight, and each carries two entries. -/
theorem shapeEntries?_spec {args : List Word} {l : List Int} (h : shapeEntries? args = some l) :
    ∃ e : Fin 16 → Int, (∀ i, -32767 ≤ e i ∧ e i ≤ 32767) ∧
      args = (List.finRange 8).map (fun j => packPair (e ⟨2 * j.val, by omega⟩) (e ⟨2 * j.val + 1, by omega⟩)) := by
  simp only [shapeEntries?, Option.ite_none_right_eq_some] at h
  obtain ⟨⟨hlength, hall⟩, -⟩ := h
  have hrange (w : Word) (hw : w ∈ args) (x : Int) (hx : x ∈ shapePair w) : -32767 ≤ x ∧ x ≤ 32767 := by
    have hne : x ≠ -32768 := by
      have := List.all_eq_true.1 hall x (List.mem_flatten.2 ⟨_, List.mem_map_of_mem hw, hx⟩)
      simpa using this
    have hbounds : -32768 ≤ x ∧ x ≤ 32767 := by
      simp only [shapePair, List.mem_cons, List.not_mem_nil, or_false] at hx
      rcases hx with rfl | rfl
      · have := BitVec.le_toInt (w.extractLsb' 0 16)
        have := BitVec.toInt_lt (x := w.extractLsb' 0 16)
        omega
      · have := BitVec.le_toInt (w.extractLsb' 16 16)
        have := BitVec.toInt_lt (x := w.extractLsb' 16 16)
        omega
    omega
  refine ⟨fun i => if i.val % 2 = 0 then ((args[i.val / 2]'(by omega)).extractLsb' 0 16).toInt
    else ((args[i.val / 2]'(by omega)).extractLsb' 16 16).toInt, fun i => ?_, ?_⟩
  · refine hrange (args[i.val / 2]'(by omega)) (List.getElem_mem _) _ ?_
    dsimp only
    split <;> simp [shapePair]
  · refine List.ext_getElem (by simp [hlength]) fun n hn hn' => ?_
    have hhalf : (2 * n + 1) / 2 = n := by omega
    have hodd : (2 * n + 1) % 2 ≠ 0 := by omega
    simp only [List.getElem_map, List.getElem_finRange, Fin.val_cast, Nat.mul_mod_right, if_pos,
      Nat.mul_div_cancel_left n (show 0 < 2 by decide), hhalf, if_neg hodd]
    exact packPair_of_shapePair rfl

/-- R50: the table and the first entry that an index names. -/
theorem shapeIndex?_eq_some {index : Half} {t : Fin 4} {k : Fin 16} (h : index.toNat = 256 * t.val + 16 * k.val) :
    shapeIndex? index = some (t, 16 * k.val) := by
  have hlow := lowPart_of_eq h (by omega)
  simp only [shapeIndex?, indexed?_of_eq (highPart_of_eq h (by omega)), hlow, Nat.mul_mod_right, if_true]

theorem shapeIndex?_eq_none {index : Half} (h : ∀ (t : Fin 4) (k : Fin 16), index.toNat ≠ 256 * t.val + 16 * k.val) :
    shapeIndex? index = none := by
  have hparts := index_eq_parts index
  have hlow : lowPart index < 256 := Nat.mod_lt _ (by decide)
  unfold shapeIndex?
  split
  · rfl
  · next t ht =>
    have hhigh := indexed?_eq_some.1 ht
    refine if_neg fun hmod => h t ⟨lowPart index / 16, by omega⟩ ?_
    simp only
    omega

/-- R50: sixteen entries of a table written, the others left. -/
theorem writeShape_ofFn (table : Vector Int 256) (k : Fin 16) (e : Fin 16 → Int) :
    writeShape table (16 * k.val) (List.ofFn e) = table.alterAll (fun i x =>
      if h : 16 * k.val ≤ i.val ∧ i.val < 16 * k.val + 16 then e ⟨i.val - 16 * k.val, by omega⟩ else x) := by
  refine Vector.ext_entry fun i => ?_
  rw [writeShape, Vector.entry_alterAll, Vector.entry_alterAll]
  split
  · next h =>
    have hlt : i.val - 16 * k.val < 16 := by omega
    rw [List.getD_eq_getElem?_getD, List.getElem?_ofFn, dif_pos hlt, Option.getD_some]
  · rfl

/-- R51: a table is in use. -/
theorem State.shapeInUse_iff {s : State} {t : Fin 4} : s.shapeInUse t = true ↔
    ∃ (g : Group) (p : Fin 4) (a : Actuator), s.groupState g ≠ .off ∧
      (p = (s.pages.entry g).active ∨ some p = (s.pages.entry g).pendingPage) ∧
      ((s.page g p).entries.entry a).map (·.shape) = some t := by
  have hnames (g : Group) (p : Fin 4) : (s.page g p).namesShape t = true ↔
      ∃ a : Actuator, ((s.page g p).entries.entry a).map (·.shape) = some t := by
    simp [Page.namesShape, allActuators, -List.ofFn_succ, Option.any_eq_true]
  have hgroup (g : Group) : ((s.activePage g).namesShape t ||
      (s.pages.entry g).pendingPage.any (fun p => (s.page g p).namesShape t)) = true ↔
      ∃ p : Fin 4, (p = (s.pages.entry g).active ∨ some p = (s.pages.entry g).pendingPage) ∧
        (s.page g p).namesShape t = true := by
    unfold State.activePage
    rw [Bool.or_eq_true, Option.any_eq_true]
    constructor
    · rintro (h | ⟨p, hp, h⟩)
      · exact ⟨_, .inl rfl, h⟩
      · exact ⟨p, .inr hp.symm, h⟩
    · rintro ⟨p, rfl | hp, h⟩
      · exact .inl h
      · exact .inr ⟨p, hp.symm, h⟩
  simp only [State.shapeInUse, allGroups, List.any_eq_true, List.mem_ofFn, id_eq, exists_eq, true_and,
    Bool.and_eq_true, bne_iff_ne, hgroup, hnames]
  constructor
  · rintro ⟨g, hoff, p, hp, a, ha⟩
    exact ⟨g, p, a, hoff, hp, ha⟩
  · rintro ⟨g, p, a, hoff, hp, ha⟩
    exact ⟨g, hoff, p, hp, a, ha⟩

end Sys2Proof.Machine

namespace Sys2Proof
open Sys2Proof.Machine

/-- Settles O51, by the checks of COMMIT and of SHAPE in their order. -/
theorem commitAndShape : Obligations.CommitAndShape := by
  unfold Obligations.CommitAndShape
  refine ⟨?_, ?_, ?_⟩
  · intro before index g p s hindex
    have hnumber := numbered?_of_eq hindex
    have hpage : commitPage? [natWord p.val] = some p := commitPage?_eq_some.2 rfl
    have hbody (t : State) : commitBody index [natWord p.val] t =
        if (t.pages.entry g).pendingPage ≠ none then refuse t .commitBusy
        else if ∃ a : Actuator, (t.actuator a).group = some g ∧ (t.page g p).entries.entry a = none then
          refuse t .incomplete
        else if (t.pages.entry g).active = p then refuse t .pageActive
        else done (t.onPages g (fun y => { y with pendingPage := some p })) := by
      simp only [commitBody, hnumber, hpage, State.not_complete, Option.isSome_iff_ne_none]
    have hspent := hbody (s.onService ServiceHandler.spent)
    split_ifs with hbusy hincomplete hactive
    · exact exec_refused rfl (hspent.trans (if_pos hbusy))
    · exact exec_refused rfl (hspent.trans ((if_neg hbusy).trans (if_pos hincomplete)))
    · exact exec_refused rfl (hspent.trans ((if_neg hbusy).trans ((if_neg hincomplete).trans (if_pos hactive))))
    · exact exec_done (t := s.onPages g (fun y => { y with pendingPage := some p })) rfl
        (hspent.trans ((if_neg hbusy).trans ((if_neg hincomplete).trans (if_neg hactive)))) rfl
  · intro before t k entries s hrange index word
    have hindex : index.toNat = 256 * t.val + 16 * k.val := Nat.mod_eq_of_lt (by omega)
    have hbody (u : State) : shapeBody index [word 0 1, word 2 3, word 4 5, word 6 7, word 8 9, word 10 11, word 12 13,
        word 14 15] u = if u.shapeInUse t then refuse u .shapeInUse else 
          done { u with shapes := u.shapes.alter t (fun table => writeShape table (16 * k.val) (List.ofFn entries)) } := by
      simp only [shapeBody, shapeIndex?_eq_some hindex, word, shapeEntries?_pairs hrange]
    have hspent := hbody (s.onService ServiceHandler.spent)
    simp only [writeShape_ofFn] at hspent
    split_ifs with huse
    · exact exec_refused rfl (hspent.trans (if_pos (State.shapeInUse_iff.2 huse)))
    · exact exec_done rfl (hspent.trans (if_neg fun h => huse (State.shapeInUse_iff.1 h))) rfl
  · intro before index args s commit shape
    refine ⟨fun h => ?_, fun h0 h6 hargs => ?_, fun h => ?_, fun t k hindex hargs => ?_⟩
    · exact exec_refused rfl (by simp only [commitBody, numbered?_index.2 h])
    · obtain ⟨g, hg⟩ := numbered?_isSome h0 h6
      have hnone : commitPage? args = none :=
        Option.eq_none_iff_forall_ne_some.2 fun p hp => hargs p (commitPage?_eq_some.1 hp)
      exact exec_refused rfl (by simp only [commitBody, hg, hnone])
    · exact exec_refused rfl (by simp only [shapeBody, shapeIndex?_eq_none h])
    · have hnone : shapeEntries? args = none := Option.eq_none_iff_forall_ne_some.2 fun l hl =>
        have ⟨e, hrange, hwords⟩ := shapeEntries?_spec hl
        hargs e hrange hwords
      exact exec_refused rfl (by simp only [shapeBody, shapeIndex?_eq_some hindex, hnone])

end Sys2Proof
end

section
/-! PROOF. BLOCK and RESET_SCHEDULE: entries of a schedule written and removed, and a schedule begun afresh (R62, R64, R65). -/

namespace Sys2Proof.Machine

open Sys2Proof

theorem GroupState.isMoving_eq_false {st : GroupState} (h : st = .off ∨ st = .hold ∨ st = .rest) :
    st.isMoving = false := by
  rcases h with rfl | rfl | rfl <;> rfl

/-- R64: the entry that a BLOCK writes would be the current entry of a group with no lead, at a target already reached. -/
theorem State.targetTooLow_iff (s : State) (g : Group) (k : Nat) (e : BlockEntry) : s.targetTooLow g k e = true ↔
    s.lead g = none ∧ ((s.cycles.entry g).schedule = [] ∨
      (k = (s.cycles.entry g).pointer ∧ k < (s.cycles.entry g).schedule.length)) ∧
      e.target ≤ (s.cycles.entry g).block := by
  simp only [State.targetTooLow, Bool.and_eq_true, Bool.or_eq_true, decide_eq_true_eq, beq_iff_eq,
    Option.isNone_iff_eq_none, List.isEmpty_iff]
  tauto

/-- R65: the last entry removed, told group by group. -/
theorem State.removeLast_eq {s : State} {g : Group} {k : Nat} (hk : k + 1 = (s.cycles.entry g).schedule.length) :
    s.removeLast g = s.onAllCycles (fun h x =>
      { x with
        schedule := if h = g then x.schedule.dropLast else x.schedule
        pointer := if h = g ∧ (s.cycles.entry g).pointer = k then 0 else x.pointer
        block := if (s.cycles.entry g).pointer = k ∧ s.lead g = none ∧ (h = g ∨ s.lead h = some g) then 0
          else x.block }) := by
  have hnamed : (s.cycles.entry g).pointer + 1 = (s.cycles.entry g).schedule.length ↔
      (s.cycles.entry g).pointer = k := by omega
  have hcut : s.removeLast g = { s with cycles := (
      if (s.cycles.entry g).pointer = k ∧ s.lead g = none then
        ((s.cycles.alter g (fun x => { x with schedule := x.schedule.dropLast, pointer := 0 })).alterAll
          (fun h x => if h = g ∨ s.lead h = some g then { x with block := 0 } else x))
      else
        s.cycles.alter g (fun x =>
          { x with
            schedule := x.schedule.dropLast
            pointer := if (s.cycles.entry g).pointer = k then 0 else x.pointer })) } := by
    unfold State.removeLast
    simp only [hnamed, Option.isNone_iff_eq_none, Bool.or_eq_true, decide_eq_true_eq, beq_iff_eq]
    split
    · next h => simp only [h.1, if_true]; rfl
    · rfl
  rw [hcut]
  refine congrArg (fun c => { s with cycles := c }) (Vector.ext_entry fun i => ?_)
  rw [Vector.entry_alterAll]
  split
  · next h =>
    obtain ⟨hpointer, hlead⟩ := h
    rw [Vector.entry_alterAll, Vector.entry_alter]
    by_cases hi : i = g
    · simp [hi, hpointer, hlead]
    · by_cases hl : s.lead i = some g <;> simp [hi, hpointer, hlead, hl]
  · next h =>
    have hkeep : ¬((s.cycles.entry g).pointer = k ∧ s.lead g = none ∧ (i = g ∨ s.lead i = some g)) :=
      fun h' => h ⟨h'.1, h'.2.1⟩
    rw [Vector.entry_alter, if_neg hkeep]
    by_cases hi : i = g <;> simp [hi]

/-- R62: a schedule begun afresh, told with equations of groups. -/
theorem State.restartSchedule_eq (s : State) (g : Group) : s.restartSchedule g =
    (s.onAllCycles (fun h x =>
      if h = g then { x with total := 0, block := 0, pointer := 0 }
      else if s.lead h = some g then { x with block := 0 } else x)).onShape g (fun x => { x with theta := 0 }) := by
  unfold State.restartSchedule
  simp only [beq_iff_eq]

/-! ### BLOCK by its words (R64, R65) -/

section
variable {index : Half} {g : Group} {k : Nat}

theorem blockBody_clear (hg : numbered? 6 (highPart index) = some g) (s : State) : blockBody index [] s =
    if lowPart index + 1 ≠ (s.cycles.entry g).schedule.length then refuse s .badIndex
    else if (s.groupState g).isMoving then refuse s .state
    else done (s.removeLast g) := by
  simp only [blockBody, hg, formOf_clear]

theorem blockBody_bad {args : List Word} (hg : numbered? 6 (highPart index) = some g)
    (hargs : formOf blockEntry? args = .bad) (s : State) : blockBody index args s =
    if 16 ≤ lowPart index ∨ (s.cycles.entry g).schedule.length < lowPart index then refuse s .badIndex
    else refuse s .badValue := by
  simp only [blockBody, hg, hargs]
  rfl

theorem blockBody_write {args : List Word} {e : BlockEntry} (hg : numbered? 6 (highPart index) = some g)
    (hargs : formOf blockEntry? args = .write e) (s : State) : blockBody index args s =
    if 16 ≤ lowPart index ∨ (s.cycles.entry g).schedule.length < lowPart index then refuse s .badIndex
    else if (s.groupState g).isMoving then refuse s .state
    else if s.targetTooLow g (lowPart index) e then refuse s .badValue
    else done (s.onCycles g (fun x => { x with schedule := storeEntry (lowPart index) e x.schedule })) := by
  simp only [blockBody, hg, hargs]
  rfl

end

theorem resetScheduleBody_of_still {index : Half} {g : Group} {s : State} (hg : numbered? 6 index.toNat = some g)
    (h : (s.groupState g).isMoving = false) : resetScheduleBody index [] s = done (s.restartSchedule g) := by
  simp only [resetScheduleBody, hg, h]
  rfl

theorem resetScheduleBody_of_moving {index : Half} {g : Group} {s : State} (hg : numbered? 6 index.toNat = some g)
    (h : (s.groupState g).isMoving = true) : resetScheduleBody index [] s = refuse s .state := by
  simp only [resetScheduleBody, hg, h]
  rfl

/-- The words of a BLOCK read as none, as a schedule entry, or as no such entry. -/
theorem blockForm_cases (args : List Word) : args = [] ∨
    (∃ e, formOf blockEntry? args = .write e ∧ args = [natWord e.target, natWord e.page.val, natWord e.endAction.toCode] ∧
      1 ≤ e.target ∧ e.target ≤ 16777215) ∨
    (args ≠ [] ∧ formOf blockEntry? args = .bad) := by
  by_cases hne : args = []
  · exact .inl hne
  · cases hread : blockEntry? args with
    | none => exact .inr (.inr ⟨hne, formOf_bad hne fun e he => nomatch hread.symm.trans he⟩)
    | some e => exact .inr (.inl ⟨e, formOf_of_read hne hread, blockEntry?_eq_some.1 hread⟩)

end Sys2Proof.Machine

namespace Sys2Proof
open Sys2Proof.Machine

/-- Settles O52, by the group and the place that the index names and what the words carry. -/
theorem scheduleCommands : Obligations.ScheduleCommands := by
  unfold Obligations.ScheduleCommands
  constructor
  · intro before g s hstill c
    have hmoving : ((s.onService ServiceHandler.spent).groupState g).isMoving = false :=
      GroupState.isMoving_eq_false hstill
    refine ⟨fun index k e hindex hk hplace hlow hhigh => ?_, fun index k hindex hk hplace => ?_, fun index hindex => ?_⟩
    · have hg : numbered? 6 (highPart index) = some g := numbered?_of_eq (highPart_of_eq hindex (by omega))
      have hlowPart : lowPart index = k := lowPart_of_eq hindex (by omega)
      have hread := blockEntry?_eq_some.2 ⟨rfl, hlow, hhigh⟩
      have hbody := blockBody_write hg (formOf_of_read (List.cons_ne_nil _ _) hread)
        (s.onService ServiceHandler.spent)
      have hin : ¬(16 ≤ k ∨ ((s.onService ServiceHandler.spent).cycles.entry g).schedule.length < k) :=
        not_or.2 ⟨by omega, Nat.not_lt.2 hplace⟩
      rw [hlowPart, hmoving, if_neg hin, if_neg (by decide)] at hbody
      split_ifs with htarget
      · exact exec_refused rfl (hbody.trans (if_pos ((State.targetTooLow_iff _ g k e).2 htarget)))
      · exact exec_done
          (t := s.onCycles g (fun x =>
            { x with schedule := if k < x.schedule.length then x.schedule.set k e else x.schedule ++ [e] })) rfl
          (hbody.trans (if_neg fun h => htarget ((State.targetTooLow_iff _ g k e).1 h))) rfl
    · have hg : numbered? 6 (highPart index) = some g := numbered?_of_eq (highPart_of_eq hindex (by omega))
      have hlowPart : lowPart index = k := lowPart_of_eq hindex (by omega)
      have hbody := blockBody_clear hg (s.onService ServiceHandler.spent)
      have hlast : k + 1 = ((s.onService ServiceHandler.spent).cycles.entry g).schedule.length := hplace
      rw [hlowPart, hmoving, if_neg (not_not.2 hlast), if_neg (by decide)] at hbody
      exact exec_done rfl (hbody.trans (congrArg done (State.removeLast_eq hplace))) rfl
    · rw [← State.restartSchedule_eq]
      exact exec_done (t := s.restartSchedule g) rfl (resetScheduleBody_of_still (numbered?_of_eq hindex) hmoving) rfl
  · intro before index args s block restart moving
    have hmoves (g : Group) (h : moving g) : ((s.onService ServiceHandler.spent).groupState g).isMoving = true :=
      (GroupState.isMoving_iff _).2 h
    refine ⟨fun h => ?_, ?_, fun h => ?_, fun g hindex => ⟨fun hargs => ?_, fun hargs hg => ?_⟩⟩
    · have hnone : numbered? 6 (highPart index) = none := numbered?_eq_none.2 (by unfold highPart; omega)
      exact exec_refused rfl (by simp only [blockBody, hnone])
    · intro g k hindex hk count reads
      have hg : numbered? 6 (highPart index) = some g := numbered?_of_eq (highPart_of_eq hindex (by omega))
      have hlowPart : lowPart index = k := lowPart_of_eq hindex (by omega)
      have hclear := blockBody_clear hg (s.onService ServiceHandler.spent)
      have hwrite (e : BlockEntry) (he : formOf blockEntry? args = .write e) :=
        blockBody_write hg he (s.onService ServiceHandler.spent)
      have hbad (he : formOf blockEntry? args = .bad) := blockBody_bad hg he (s.onService ServiceHandler.spent)
      simp only [hlowPart] at hclear hwrite hbad
      refine ⟨fun hargs hplace => ?_, fun hargs hplace hm => ?_, fun hne hplace => ?_, fun hne hk' hplace hno => ?_,
        fun e he hk' hplace hm => ?_⟩
      · subst hargs
        exact exec_refused rfl (hclear.trans (if_pos hplace))
      · subst hargs
        exact exec_refused rfl (hclear.trans ((if_neg (not_not.2 hplace)).trans (if_pos (hmoves g hm))))
      · have hout : 16 ≤ k ∨ ((s.onService ServiceHandler.spent).cycles.entry g).schedule.length < k := by
          rcases hplace with h | h
          · exact .inl h
          · exact .inr h
        rcases blockForm_cases args with hnil | ⟨e, he, -⟩ | ⟨-, he⟩
        · exact absurd hnil hne
        · exact exec_refused rfl ((hwrite e he).trans (if_pos hout))
        · exact exec_refused rfl ((hbad he).trans (if_pos hout))
      · have hin : ¬(16 ≤ k ∨ ((s.onService ServiceHandler.spent).cycles.entry g).schedule.length < k) :=
          not_or.2 ⟨by omega, Nat.not_lt.2 hplace⟩
        rcases blockForm_cases args with hnil | ⟨e, he, hwords, hlow, hhigh⟩ | ⟨-, he⟩
        · exact absurd hnil hne
        · exact absurd ⟨hlow, hhigh, hwords⟩ (hno e)
        · exact exec_refused rfl ((hbad he).trans (if_neg hin))
      · obtain ⟨hlow, hhigh, hwords⟩ := he
        have hform : formOf blockEntry? args = .write e :=
          formOf_of_read (by rw [hwords]; exact List.cons_ne_nil _ _) (blockEntry?_eq_some.2 ⟨hwords, hlow, hhigh⟩)
        have hin : ¬(16 ≤ k ∨ ((s.onService ServiceHandler.spent).cycles.entry g).schedule.length < k) :=
          not_or.2 ⟨by omega, Nat.not_lt.2 hplace⟩
        exact exec_refused rfl ((hwrite e hform).trans ((if_neg hin).trans (if_pos (hmoves g hm))))
    · exact exec_refused rfl (by simp only [resetScheduleBody, numbered?_index.2 h])
    · exact exec_refused rfl (by simp only [resetScheduleBody, numbered?_of_eq hindex, if_pos hargs])
    · subst hargs
      exact exec_refused rfl (resetScheduleBody_of_moving (numbered?_of_eq hindex) (hmoves g hg))

end Sys2Proof
end

section
/-! PROOF. CAL, LIMIT, CRACK and COINC: the records of the strain channels, the crack channels and the coincidence sets written
and cleared (R97, R104, R105, R116, R117, R127). -/

namespace Sys2Proof.Machine

open Sys2Proof

/-! ### Records of channels (R97, R104, R116) -/

theorem calibration?_eq_some {args : List Word} {r : Calibration} :
    calibration? args = some r ↔
      args = [intWord r.zero, natWord r.gain, optWord (r.comp.map (·.val)) 65535] ∧
      -8388608 ≤ r.zero ∧ r.zero ≤ 8388607 ∧ 1 ≤ r.gain ∧ r.gain ≤ 16777215 := by
  constructor
  · intro h
    unfold calibration? at h
    split at h
    case h_1 z g comp =>
      split at h
      case h_1 => exact nomatch h
      case h_2 c hc =>
        split at h
        case isTrue hin =>
          cases h
          obtain rfl := compensationWord_iff.1 hc
          simpa using hin
        case isFalse => exact nomatch h
    case h_2 => exact nomatch h
  · rintro ⟨rfl, hz, hz', hg, hg'⟩
    simp only [calibration?, compensationWord_iff.2 rfl, toInt_intWord (show -2147483648 ≤ r.zero by omega) (by omega),
      toNat_natWord (show r.gain < 4294967296 by omega)]
    exact if_pos ⟨hz, hz', hg, hg'⟩

theorem strainInRange_iff {x : Int} : strainInRange x = true ↔ -50000 ≤ x ∧ x ≤ 50000 := by
  rw [strainInRange, Bool.and_eq_true, decide_eq_true_eq, decide_eq_true_eq]
  exact Iff.rfl

theorem limitRecord?_eq_some {args : List Word} {r : LimitRecord} :
    limitRecord? args = some r ↔
      args = [intWord r.warnLow, intWord r.warnHigh, intWord r.stopLow, intWord r.stopHigh, natWord r.hysteresis,
        natWord r.debounce, natWord r.level, natWord r.action.toCode, natWord r.mask.toNat, boolWord r.capture] ∧
      -50000 ≤ r.stopLow ∧ r.stopLow ≤ r.warnLow ∧ r.warnLow < r.warnHigh ∧ r.warnHigh ≤ r.stopHigh ∧
      r.stopHigh ≤ 50000 ∧ r.hysteresis ≤ 5000 ∧ 2 * (r.hysteresis : Int) ≤ r.warnHigh - r.warnLow ∧
      1 ≤ r.debounce ∧ r.debounce ≤ 15 ∧ r.level ≤ 7 := by
  constructor
  · intro h
    unfold limitRecord? at h
    split at h
    case h_1 wl wh sl sh hy d lv ac mk cf =>
      split at h
      case h_1 act mask cap ha hm hc =>
        split at h
        case isTrue hin =>
          cases h
          obtain rfl := actionWord_iff.1 ha
          obtain rfl := maskWord_iff.1 hm
          obtain rfl := flagWord_iff.1 hc
          obtain ⟨-, -, hsl, hsh, hhy, hd, hd', hlv, hw, hl, hh, htwice⟩ := hin
          refine ⟨by simp only [intWord_toInt_self, natWord_toNat_self], (strainInRange_iff.1 hsl).1, hl, hw, hh,
            (strainInRange_iff.1 hsh).2, hhy, htwice, hd, hd', hlv⟩
        case isFalse => exact nomatch h
      case h_2 => exact nomatch h
    case h_2 => exact nomatch h
  · rintro ⟨rfl, hsl, hl, hw, hh, hsh, hhy, htwice, hd, hd', hlv⟩
    have hwarnLow : -2147483648 ≤ r.warnLow ∧ r.warnLow < 2147483648 := by omega
    have hwarnHigh : -2147483648 ≤ r.warnHigh ∧ r.warnHigh < 2147483648 := by omega
    have hstopLow : -2147483648 ≤ r.stopLow ∧ r.stopLow < 2147483648 := by omega
    have hstopHigh : -2147483648 ≤ r.stopHigh ∧ r.stopHigh < 2147483648 := by omega
    simp only [limitRecord?, actionWord_iff.2 rfl, maskWord_iff.2 rfl, flagWord_iff.2 rfl,
      toInt_intWord hwarnLow.1 hwarnLow.2, toInt_intWord hwarnHigh.1 hwarnHigh.2, toInt_intWord hstopLow.1 hstopLow.2,
      toInt_intWord hstopHigh.1 hstopHigh.2, toNat_natWord (show r.hysteresis < 4294967296 by omega),
      toNat_natWord (show r.debounce < 4294967296 by omega), toNat_natWord (show r.level < 4294967296 by omega),
      strainInRange_iff]
    exact if_pos ⟨by omega, by omega, by omega, by omega, hhy, hd, hd', hlv, hw, hl, hh, htwice⟩

theorem crackRecord?_eq_some {args : List Word} {r : CrackRecord} :
    crackRecord? args = some r ↔
      args = [natWord r.kind.toCode, natWord r.debounce, natWord r.decay, natWord r.threshold, natWord r.level,
        natWord r.action.toCode, natWord r.mask.toNat, boolWord r.capture] ∧
      1 ≤ r.debounce ∧ r.debounce ≤ 15 ∧ 1 ≤ r.decay ∧ r.decay ≤ 8 ∧ 1 ≤ r.threshold ∧ r.threshold ≤ 16777215 ∧
      r.level ≤ 7 := by
  constructor
  · intro h
    unfold crackRecord? at h
    split at h
    case h_1 kd d k t lv ac mk cf =>
      split at h
      case h_1 kind act mask cap hk ha hm hc =>
        split at h
        case isTrue hin =>
          cases h
          obtain rfl := crackKindWord_iff.1 hk
          obtain rfl := actionWord_iff.1 ha
          obtain rfl := maskWord_iff.1 hm
          obtain rfl := flagWord_iff.1 hc
          exact ⟨by simp only [natWord_toNat_self], hin⟩
        case isFalse => exact nomatch h
      case h_2 => exact nomatch h
    case h_2 => exact nomatch h
  · rintro ⟨rfl, hd, hd', hk, hk', ht, ht', hlv⟩
    simp only [crackRecord?, crackKindWord_iff.2 rfl, actionWord_iff.2 rfl, maskWord_iff.2 rfl, flagWord_iff.2 rfl,
      toNat_natWord (show r.debounce < 4294967296 by omega), toNat_natWord (show r.decay < 4294967296 by omega),
      toNat_natWord (show r.threshold < 4294967296 by omega), toNat_natWord (show r.level < 4294967296 by omega)]
    exact if_pos ⟨hd, hd', hk, hk', ht, ht', hlv⟩

/-! ### Records of coincidence sets (R127) -/

/-- R127: eight bytes name the members that those other than 255 are the numbers of, in their order. -/
theorem members?_eq_some {bytes : List Byte} {ms : List (Fin 64)} :
    members? bytes = some ms ↔ bytes.filter (fun b => b != 255) = ms.map (fun k => BitVec.ofNat 8 k.val) := by
  have hsplit : members? bytes = some ms ↔
      bytes.all (fun b => decide (b.toNat < 64) || b == 255) = true ∧
        bytes.filterMap (fun b => indexed? 64 b.toNat) = ms := by
    unfold members?
    rw [Option.ite_none_right_eq_some, Option.some.injEq]
  rw [hsplit]
  clear hsplit
  induction bytes generalizing ms with
  | nil => cases ms <;> simp
  | cons b bs ih =>
    rw [List.all_cons, Bool.and_eq_true, Bool.or_eq_true, decide_eq_true_eq, beq_iff_eq]
    by_cases h255 : b = 255
    · subst h255
      rw [List.filterMap_cons_none (f := fun b : Byte => indexed? 64 b.toNat) rfl, List.filter_cons_of_neg (by decide)]
      exact Iff.trans (by simp) ih
    · rw [List.filter_cons_of_pos (by simpa using h255)]
      by_cases h64 : b.toNat < 64
      · rw [List.filterMap_cons_some (f := fun b : Byte => indexed? 64 b.toNat) (indexed?_of_eq (i := ⟨b.toNat, h64⟩) rfl)]
        cases ms with
        | nil => simp
        | cons m ms =>
          have hm : b = BitVec.ofNat 8 m.val ↔ (⟨b.toNat, h64⟩ : Fin 64) = m := by
            rw [← BitVec.toNat_inj, BitVec.toNat_ofNat, Nat.mod_eq_of_lt (by omega), Fin.ext_iff]
          rw [List.map_cons, List.cons.injEq, List.cons.injEq, hm]
          refine Iff.trans ?_ (and_congr_right fun _ => ih)
          simp only [h64, true_or, true_and]
          tauto
      · simp only [h64, h255, or_self, false_and, false_iff]
        cases ms with
        | nil => simp
        | cons m ms =>
          intro h
          have hb := congrArg BitVec.toNat (List.cons.inj h).1
          rw [BitVec.toNat_ofNat, Nat.mod_eq_of_lt (by omega)] at hb
          omega

/-- R127: two words name the members of a set. -/
def CoincidenceRecord.namedBy (r : CoincidenceRecord) (members : List Word) : Prop :=
  ∃ w6 w7 : Word, members = [w6, w7] ∧
    (wordBytes w6 ++ wordBytes w7).filter (fun b => b != 255) = r.members.map (fun k => BitVec.ofNat 8 k.val)

theorem CoincidenceRecord.namedBy_length {r : CoincidenceRecord} {members : List Word} (h : r.namedBy members) :
    r.members.length ≤ 8 := by
  obtain ⟨w6, w7, -, hbytes⟩ := h
  have hlength := congrArg List.length hbytes
  rw [List.length_map] at hlength
  have hle := List.length_filter_le (fun b : Byte => b != 255) (wordBytes w6 ++ wordBytes w7)
  simp only [List.length_append, wordBytes_length] at hle
  omega

/-- R130: the byte at a place of the members packed. -/
def memberByte (ms : List (Fin 64)) (i : Nat) : Byte :=
  match ms[i]? with
  | none => 255
  | some k => BitVec.ofNat 8 k.val

theorem memberWords_eq (ms : List (Fin 64)) : memberWords ms =
    [wordOf (memberByte ms 0) (memberByte ms 1) (memberByte ms 2) (memberByte ms 3),
     wordOf (memberByte ms 4) (memberByte ms 5) (memberByte ms 6) (memberByte ms 7)] := rfl

/-- R130: the members packed, then 255 in each byte after the last. -/
theorem memberBytes_eq {ms : List (Fin 64)} (h : ms.length ≤ 8) :
    (List.range 8).map (memberByte ms) =
      ms.map (fun k => BitVec.ofNat 8 k.val) ++ List.replicate (8 - ms.length) 255 := by
  refine List.ext_getElem (by simp; omega) fun i hi hi' => ?_
  rw [List.getElem_map, List.getElem_range, List.getElem_append]
  unfold memberByte
  by_cases hlt : i < ms.length
  · simp [hlt]
  · simp [hlt]

/-- R130: at most eight members are named by the words that they are packed into. -/
theorem CoincidenceRecord.namedBy_memberWords {r : CoincidenceRecord} (h : r.members.length ≤ 8) :
    r.namedBy (memberWords r.members) := by
  refine ⟨_, _, memberWords_eq r.members, ?_⟩
  rw [wordBytes_wordOf, wordBytes_wordOf]
  have hbytes := memberBytes_eq h
  have hnumbers : ∀ k : Fin 64, (BitVec.ofNat 8 k.val != 255) = true := by decide
  show ((List.range 8).map (memberByte r.members)).filter (fun b => b != 255) = _
  rw [hbytes, List.filter_append, List.filter_replicate, List.filter_map,
    List.filter_eq_self (p := (fun b : Byte => b != 255) ∘ fun k : Fin 64 => BitVec.ofNat 8 k.val) |>.2 fun k _ => hnumbers k]
  simp

theorem coincidence?_eq_some {args : List Word} {r : CoincidenceRecord} :
    coincidence? args = some r ↔ ∃ members : List Word,
      args = [natWord r.minimum, natWord r.level, natWord r.action.toCode, natWord r.mask.toNat, boolWord r.capture] ++
        members ∧ r.namedBy members ∧ r.members ≠ [] ∧ r.members.Nodup ∧ 1 ≤ r.minimum ∧
      r.minimum ≤ r.members.length ∧ r.level ≤ 7 := by
  constructor
  · intro h
    unfold coincidence? at h
    split at h
    case h_1 m lv ac mk cf w6 w7 =>
      split at h
      case h_1 act mask cap ms ha hm hc hms =>
        split at h
        case isTrue hin =>
          cases h
          obtain rfl := actionWord_iff.1 ha
          obtain rfl := maskWord_iff.1 hm
          obtain rfl := flagWord_iff.1 hc
          obtain ⟨hne, hnodup, hlow, -, hmin, hlv⟩ := hin
          exact ⟨[w6, w7], by simp only [natWord_toNat_self, List.cons_append, List.nil_append],
            ⟨w6, w7, rfl, members?_eq_some.1 hms⟩, hne, hnodup, hlow, hmin, hlv⟩
        case isFalse => exact nomatch h
      case h_2 => exact nomatch h
    case h_2 => exact nomatch h
  · rintro ⟨members, rfl, hnamed, hne, hnodup, hlow, hmin, hlv⟩
    have hlength := CoincidenceRecord.namedBy_length hnamed
    obtain ⟨w6, w7, rfl, hbytes⟩ := hnamed
    simp only [coincidence?, List.cons_append, List.nil_append, actionWord_iff.2 rfl, maskWord_iff.2 rfl,
      flagWord_iff.2 rfl, members?_eq_some.2 hbytes, toNat_natWord (show r.minimum < 4294967296 by omega),
      toNat_natWord (show r.level < 4294967296 by omega)]
    exact if_pos ⟨hne, hnodup, hlow, by omega, hmin, hlv⟩

/-! ### The four commands (R97, R104, R105, R116, R117, R127) -/

theorem State.compensationChain_iff {s : State} {c : Fin 256} {comp : Option (Fin 256)} :
    s.compensationChain c comp = true ↔ ∃ d : Fin 256, comp = some d ∧
      (d = c ∨ (s.strain.entry d).cal.bind (·.comp) ≠ none ∨
        ∃ e : Fin 256, e ≠ c ∧ (s.strain.entry e).cal.bind (·.comp) = some c) := by
  have hled : allStrain.any (fun e => e != c && (s.strain.entry e).cal.any (fun r => r.comp == some c)) = true ↔
      ∃ e : Fin 256, e ≠ c ∧ (s.strain.entry e).cal.bind (·.comp) = some c := by
    simp [allStrain, -List.ofFn_succ, Option.any_eq_true, Option.bind_eq_some_iff]
  have hnamed (d : Fin 256) : (s.strain.entry d).cal.any (fun r => r.comp.isSome) = true ↔
      (s.strain.entry d).cal.bind (·.comp) ≠ none := by
    cases (s.strain.entry d).cal <;> simp [Option.isSome_iff_ne_none]
  cases comp with
  | none => simp [State.compensationChain]
  | some d =>
    simp only [State.compensationChain, Bool.or_eq_true, beq_iff_eq, hled, hnamed, Option.some.injEq, exists_eq_left',
      or_assoc]

/-- R117: a record written, by whether the channel had one of the same kind. -/
theorem CrackChannel.writeRecord_eq (ch : CrackChannel) (r : CrackRecord) : ch.writeRecord r =
    if ch.record.map (·.kind) = some r.kind then { ch with record := some r, debounce := 0 }
    else
      { ch with
        record := some r, condition := false, sensorFault := false, debounce := 0, accumulator := 0, armed := true } := by
  have hkind : ch.record.any (fun old => old.kind == r.kind) = true ↔ ch.record.map (·.kind) = some r.kind := by
    cases ch.record <;> simp
  unfold CrackChannel.writeRecord CrackChannel.resetState
  simp only [hkind]

end Sys2Proof.Machine

namespace Sys2Proof
open Sys2Proof.Machine

/-- Settles O53, by the channel or set that the index names and the record that the words carry. -/
theorem channelRecordsWritten : Obligations.ChannelRecordsWritten := by
  unfold Obligations.ChannelRecordsWritten
  intro names
  refine ⟨?_, ⟨?_, ?_⟩, ?_⟩
  · intro before index c s hindex
    have hc : indexed? 256 index.toNat = some c := indexed?_of_eq hindex
    refine ⟨fun r hz hz' hg hg' => ?_, ?_, fun r hsl hl hw hh hsh hhy htwice hd hd' hlv => ?_, ?_⟩
    · have hread := calibration?_eq_some.2 ⟨rfl, hz, hz', hg, hg'⟩
      have hbody (t : State) :
          calBody index [intWord r.zero, natWord r.gain, optWord (r.comp.map (·.val)) 65535] t =
            if t.compensationChain c r.comp then refuse t .chain
            else done (t.onStrain c (fun ch => { ch with cal := some r })) := by
        simp only [calBody, hc, formOf_of_read (List.cons_ne_nil _ _) hread]
      have hspent := hbody (s.onService ServiceHandler.spent)
      split_ifs with hchain
      · exact exec_refused rfl (hspent.trans (if_pos (State.compensationChain_iff.2 hchain)))
      · exact exec_done (t := s.onStrain c (fun ch => { ch with cal := some r })) rfl
          (hspent.trans (if_neg fun h => hchain (State.compensationChain_iff.1 h))) rfl
    · exact exec_done (t := s.onStrain c (fun ch => { ch with cal := none })) rfl
        (by simp only [calBody, hc, formOf_clear]; rfl) rfl
    · have hread := limitRecord?_eq_some.2 ⟨rfl, hsl, hl, hw, hh, hsh, hhy, htwice, hd, hd', hlv⟩
      exact exec_done (t := s.onStrain c (fun ch => { ch with limit := some r, debounce := 0, run := none })) rfl
        (by simp only [limitBody, hc, formOf_of_read (List.cons_ne_nil _ _) hread]; rfl) rfl
    · exact exec_done (t := s.onStrain c (fun ch =>
          { ch with limit := none, watch := .normal, debounce := 0, run := none, armed := true })) rfl
        (by simp only [limitBody, hc, formOf_clear]; rfl) rfl
  · intro before index k s hindex reset
    have hk : indexed? 64 index.toNat = some k := indexed?_of_eq hindex
    refine ⟨fun r hd hd' hdecay hdecay' ht ht' hlv => ?_, ?_⟩
    · have hread := crackRecord?_eq_some.2 ⟨rfl, hd, hd', hdecay, hdecay', ht, ht', hlv⟩
      simp only [reset, ← CrackChannel.writeRecord_eq]
      exact exec_done (t := s.onCrack k (fun ch => ch.writeRecord r)) rfl
        (by simp only [crackBody, hk, formOf_of_read (List.cons_ne_nil _ _) hread]; rfl) rfl
    · exact exec_done (t := s.onCrack k (reset none)) rfl (by simp only [crackBody, hk, formOf_clear]; rfl) rfl
  · intro before index n s hindex
    have hn := numbered?_of_eq hindex
    refine ⟨fun r members hmembers hne hnodup hlength hlow hmin hlv => ?_, ?_⟩
    · have hnamed : r.namedBy members := by
        rcases hmembers with rfl | h
        · exact CoincidenceRecord.namedBy_memberWords hlength
        · exact h
      have hread := coincidence?_eq_some.2 ⟨members, rfl, hnamed, hne, hnodup, hlow, hmin, hlv⟩
      exact exec_done (t := s.onSet n (fun st => { st with record := some r })) rfl
        (by simp only [coincBody, hn, formOf_of_read (List.append_ne_nil_of_left_ne_nil (List.cons_ne_nil _ _) _) hread]
            rfl) rfl
    · exact exec_done (t := s.onSet n (fun _ => { record := none, armed := true, lastCount := 0 })) rfl
        (by simp only [coincBody, hn, formOf_clear]; rfl) rfl
  · intro before index args s cal limit crack coinc
    refine ⟨fun h => ?_, fun h => ?_, fun h => ?_, fun hle hne => ⟨fun hargs => ?_, fun hargs => ?_⟩,
      fun hle hne hargs => ?_, fun h0 h8 hne hargs => ?_⟩
    · have hnone : indexed? 256 index.toNat = none := indexed?_eq_none.2 h
      exact ⟨exec_refused rfl (by simp only [calBody, hnone]), exec_refused rfl (by simp only [limitBody, hnone])⟩
    · have hnone : indexed? 64 index.toNat = none := indexed?_eq_none.2 h
      exact exec_refused rfl (by simp only [crackBody, hnone])
    · exact exec_refused rfl (by simp only [coincBody, numbered?_index.2 h])
    · obtain ⟨c, hc⟩ := indexed?_isSome (n := 256) (Nat.lt_succ_of_le hle)
      have hbad : formOf calibration? args = .bad := formOf_bad hne fun r hr =>
        have ⟨hwords, hz, hz', hg, hg'⟩ := calibration?_eq_some.1 hr
        hargs r hz hz' hg hg' hwords
      exact exec_refused rfl (by simp only [calBody, hc, hbad])
    · obtain ⟨c, hc⟩ := indexed?_isSome (n := 256) (Nat.lt_succ_of_le hle)
      have hbad : formOf limitRecord? args = .bad := formOf_bad hne fun r hr =>
        have ⟨hwords, hsl, hl, hw, hh, hsh, hhy, htwice, hd, hd', hlv⟩ := limitRecord?_eq_some.1 hr
        hargs r hsl hl hw hh hsh hhy htwice hd hd' hlv hwords
      exact exec_refused rfl (by simp only [limitBody, hc, hbad])
    · obtain ⟨k, hk⟩ := indexed?_isSome (n := 64) (Nat.lt_succ_of_le hle)
      have hbad : formOf crackRecord? args = .bad := formOf_bad hne fun r hr =>
        have ⟨hwords, hd, hd', hdecay, hdecay', ht, ht', hlv⟩ := crackRecord?_eq_some.1 hr
        hargs r hd hd' hdecay hdecay' ht ht' hlv hwords
      exact exec_refused rfl (by simp only [crackBody, hk, hbad])
    · obtain ⟨n, hn⟩ := numbered?_isSome h0 h8
      have hbad : formOf coincidence? args = .bad := formOf_bad hne fun r hr =>
        have ⟨members, hwords, hnamed, hmembers, hnodup, hlow, hmin, hlv⟩ := coincidence?_eq_some.1 hr
        hargs r members hnamed hmembers hnodup hlow hmin hlv hwords
      exact exec_refused rfl (by simp only [coincBody, hn, hbad])

end Sys2Proof
end

section
/-! PROOF. MAP: the role codes of Figure 2-4 read, the checks of R15 in their order, and a role bound and unbound (R15 to R18,
R93). -/

namespace Sys2Proof.Machine

open Sys2Proof

/-! ### Role codes (Figure 2-4, R15) -/

/-- Figure 2-4: the code of what a role code asks. -/
def RoleCode.code : RoleCode → Nat
  | .unbind => 0
  | .bind r => r.code

theorem Role.code_lt (r : Role) : r.code < 65536 := by
  cases r <;> simp only [Role.code, numberOf] <;> omega

theorem code_of_roleCode? {w : Word} {c : RoleCode} (h : roleCode? w = some c) : w.toNat = c.code := by
  unfold roleCode? at h
  dsimp only at h
  split at h
  case isTrue => exact nomatch h
  case isFalse =>
    split at h <;>
      simp only [Option.map_eq_some_iff, numbered?_eq_some, indexed?_eq_some, Option.ite_none_right_eq_some,
        Option.some.injEq, reduceCtorEq] at h
    case h_1 => obtain ⟨hlow, rfl⟩ := h; simp only [RoleCode.code]; omega
    case h_2 | h_3 =>
      obtain ⟨a, hlow, rfl⟩ := h
      simp only [RoleCode.code, Role.code, numberOf]
      omega
    case h_4 | h_5 =>
      obtain ⟨c, hlow, rfl⟩ := h
      simp only [RoleCode.code, Role.code]
      omega
    case h_6 | h_7 | h_8 | h_9 =>
      obtain ⟨hlow, rfl⟩ := h
      simp only [RoleCode.code, Role.code]
      omega

/-- A word of two bytes is small, and is read by its bytes. -/
theorem natWord_bytes {high low : Nat} (hlow : low < 256) (hhigh : high < 256) :
    ¬65536 ≤ (natWord (256 * high + low)).toNat ∧ (natWord (256 * high + low)).toNat / 256 = high ∧
      (natWord (256 * high + low)).toNat % 256 = low := by
  rw [toNat_natWord (by omega)]
  omega

theorem roleCode?_code (r : Role) : roleCode? (natWord r.code) = some (.bind r) := by
  cases r with
  | setpoint a =>
    obtain ⟨hsmall, hdiv, hmod⟩ := natWord_bytes (high := 1) (low := a.val + 1) (by omega) (by decide)
    simp only [roleCode?, Role.code, numberOf, hdiv, hmod, if_neg hsmall, numbered?_of_eq (i := a) rfl, Option.map_some]
  | feedback a =>
    obtain ⟨hsmall, hdiv, hmod⟩ := natWord_bytes (high := 2) (low := a.val + 1) (by omega) (by decide)
    simp only [roleCode?, Role.code, numberOf, hdiv, hmod, if_neg hsmall, numbered?_of_eq (i := a) rfl, Option.map_some]
  | strain c =>
    obtain ⟨hsmall, hdiv, hmod⟩ := natWord_bytes (high := 3) c.isLt (by decide)
    simp only [roleCode?, Role.code, hdiv, hmod, if_neg hsmall, indexed?_of_eq (i := c) rfl, Option.map_some]
  | crack k =>
    obtain ⟨hsmall, hdiv, hmod⟩ := natWord_bytes (high := 4) (Nat.lt_trans k.isLt (by decide)) (by decide)
    simp only [roleCode?, Role.code, hdiv, hmod, if_neg hsmall, indexed?_of_eq (i := k) rfl, Option.map_some]
  | statusGroups | statusFlags | notice | noticeSeq => rfl

/-- R15: the words that Figure 2-4 has a role code for. -/
theorem roleCode_inRange (w : Word) :
    ((w.toNat / 256 = 0 ∧ w.toNat % 256 = 0) ∨
      ((w.toNat / 256 = 1 ∨ w.toNat / 256 = 2) ∧ 1 ≤ w.toNat % 256 ∧ w.toNat % 256 ≤ 16) ∨ w.toNat / 256 = 3 ∨
      (w.toNat / 256 = 4 ∧ w.toNat % 256 ≤ 63) ∨ (5 ≤ w.toNat / 256 ∧ w.toNat / 256 ≤ 8 ∧ w.toNat % 256 = 0)) ↔
    w.toNat = 0 ∨ ∃ r : Role, w.toNat = r.code := by
  constructor
  · rintro (h | ⟨h1 | h2, hlow⟩ | h3 | ⟨h4, hlow⟩ | ⟨h5, h8, hlow⟩)
    · exact .inl (by omega)
    · exact .inr ⟨.setpoint ⟨w.toNat % 256 - 1, by omega⟩, by simp only [Role.code, numberOf]; omega⟩
    · exact .inr ⟨.feedback ⟨w.toNat % 256 - 1, by omega⟩, by simp only [Role.code, numberOf]; omega⟩
    · exact .inr ⟨.strain ⟨w.toNat % 256, by omega⟩, by simp only [Role.code]; omega⟩
    · exact .inr ⟨.crack ⟨w.toNat % 256, by omega⟩, by simp only [Role.code]; omega⟩
    · have hcases : w.toNat = 256 * 5 ∨ w.toNat = 256 * 6 ∨ w.toNat = 256 * 7 ∨ w.toNat = 256 * 8 := by omega
      rcases hcases with h | h | h | h
      · exact .inr ⟨.statusGroups, h⟩
      · exact .inr ⟨.statusFlags, h⟩
      · exact .inr ⟨.notice, h⟩
      · exact .inr ⟨.noticeSeq, h⟩
  · rintro (h | ⟨r, h⟩)
    · exact .inl (by omega)
    · cases r with
      | setpoint _ | feedback _ | strain _ | crack _ => simp only [h, Role.code, numberOf]; omega
      | statusGroups | statusFlags | notice | noticeSeq =>
        rw [h]
        exact .inr (.inr (.inr (.inr (by decide))))

theorem roleCode?_eq_none {w : Word} (h : w.toNat ≠ 0) (hr : ∀ r : Role, w.toNat ≠ r.code) : roleCode? w = none := by
  refine Option.eq_none_iff_forall_ne_some.2 fun c hc => ?_
  have hcode := code_of_roleCode? hc
  cases c with
  | unbind => exact h hcode
  | bind r => exact hr r hcode

/-! ### The second and third check of MAP (R15) -/

theorem State.roleBusy_iff {s : State} {r : Role} : s.roleBusy r = true ↔
    ∃ (a : Actuator) (g : Group), r.actuator? = some a ∧ (s.actuator a).group = some g ∧ s.groupState g ≠ .off := by
  unfold State.roleBusy
  cases r.actuator? with
  | none => simp
  | some a =>
    simp only [Option.some.injEq, exists_and_left, exists_eq_left']
    cases (s.actuator a).group <;> simp

theorem State.roleBusy_eq_false {s : State} {r : Role}
    (h : ∀ (a : Actuator) (g : Group), r.actuator? = some a → (s.actuator a).group = some g → s.groupState g = .off) :
    s.roleBusy r = false := by
  rw [← Bool.not_eq_true, State.roleBusy_iff]
  rintro ⟨a, g, ha, hg, hoff⟩
  exact hoff (h a g ha hg)

theorem State.bindConflict_iff {s : State} {n : Half} {r : Role} : s.bindConflict n r = true ↔
    (∃ q : Role, roleAt? s.slotMap n = some q ∧ q ≠ r) ∨ ∃ m : Half, slotOf? s.slotMap r = some m ∧ m ≠ n := by
  simp [State.bindConflict, Option.any_eq_true]

/-! ### MAP by what its word asks (R15 to R17) -/

theorem mapBody_bind (index : Half) (r : Role) (s : State) : mapBody index [natWord r.code] s =
    if s.roleBusy r then refuse s .state
    else if s.bindConflict index r then refuse s .bound
    else if roleAt? s.slotMap index = some r then done s
    else done (s.bindRole index r) := by
  simp only [mapBody, roleCode?_code]

theorem mapBody_unbind (index : Half) (s : State) : mapBody index [0] s =
    match roleAt? s.slotMap index with
    | none => done s
    | some r => if s.roleBusy r then refuse s .state else done (s.unbindRole index r) := rfl

theorem State.bindRole_onService (s : State) (n : Half) (r : Role) (f : ServiceHandler → ServiceHandler) :
    (s.onService f).bindRole n r = (s.bindRole n r).onService f := by cases r <;> rfl

theorem State.unbindRole_onService (s : State) (n : Half) (r : Role) (f : ServiceHandler → ServiceHandler) :
    (s.onService f).unbindRole n r = (s.unbindRole n r).onService f := by cases r <;> rfl

theorem State.bindRole_service (s : State) (n : Half) (r : Role) : (s.bindRole n r).service = s.service := by
  cases r <;> rfl

theorem State.unbindRole_service (s : State) (n : Half) (r : Role) : (s.unbindRole n r).service = s.service := by
  cases r <;> rfl

theorem State.bindRole_slotMap (s : State) (n : Half) (r : Role) :
    (s.bindRole n r).slotMap = insertBinding { slot := n, role := r } s.slotMap := by cases r <;> rfl

end Sys2Proof.Machine

namespace Sys2Proof
open Sys2Proof.Machine

/-- Settles O46, by what the word asks and the checks of R15 in their order. -/
theorem mapBindsAndUnbinds : Obligations.MapBindsAndUnbinds := by
  unfold Obligations.MapBindsAndUnbinds
  refine ⟨?_, ?_, ?_⟩
  · intro before index r s hoff
    have hbusy : (s.onService ServiceHandler.spent).roleBusy r = false := State.roleBusy_eq_false hoff
    have hbody := mapBody_bind index r (s.onService ServiceHandler.spent)
    rw [hbusy, if_neg (by decide)] at hbody
    refine ⟨fun hfree hunbound => ?_, fun hat hslot => ?_⟩
    · have hconflict : ¬(s.onService ServiceHandler.spent).bindConflict index r = true := by
        rw [State.bindConflict_iff]
        rintro (⟨q, hq, -⟩ | ⟨m, hm, -⟩)
        · exact nomatch hfree.symm.trans hq
        · exact nomatch hunbound.symm.trans hm
      have hnew : ¬roleAt? (s.onService ServiceHandler.spent).slotMap index = some r :=
        fun h => Option.some_ne_none r (h.symm.trans hfree)
      rw [if_neg hconflict, if_neg hnew] at hbody
      refine ⟨s.bindRole index r, ?_, fun b => ?_, fun hwf => ?_, by cases r <;> rfl⟩
      · exact exec_done rfl (hbody.trans (congrArg done (s.bindRole_onService index r _)))
          (congrArg ServiceHandler.quiet (s.bindRole_service index r))
      · rw [State.bindRole_slotMap, mem_insertBinding, or_comm]
      · rw [State.bindRole_slotMap]
        exact mapWf_insertBinding hwf (roleAt?_eq_none.1 hfree) (slotOf?_eq_none.1 hunbound)
    · have hconflict : ¬(s.onService ServiceHandler.spent).bindConflict index r = true := by
        rw [State.bindConflict_iff]
        rintro (⟨q, hq, hne⟩ | ⟨m, hm, hne⟩)
        · exact hne (Option.some.inj (hq.symm.trans hat))
        · exact hne (Option.some.inj (hm.symm.trans hslot))
      rw [if_neg hconflict] at hbody
      exact exec_done rfl (hbody.trans (if_pos hat)) rfl
  · intro before index s
    have hbody := mapBody_unbind index (s.onService ServiceHandler.spent)
    refine ⟨fun r hat hoff => ?_, fun hfree => ?_⟩
    · have hbusy : (s.onService ServiceHandler.spent).roleBusy r = false := State.roleBusy_eq_false hoff
      have hat' : roleAt? (s.onService ServiceHandler.spent).slotMap index = some r := hat
      rw [hat'] at hbody
      simp only [hbusy, Bool.false_eq_true, if_false, State.unbindRole_onService] at hbody
      have hunbound := exec_done (c := .map index [0]) (t := s.unbindRole index r) rfl hbody
        (congrArg ServiceHandler.quiet (s.unbindRole_service index r))
      rw [hunbound]
      cases r with
      | feedback a =>
        refine congrArg (fun t : State => Host.Outcome.next (t.answered 0x10 index .ok [])) ?_
        simp only [State.unbindRole, State.resetForRole, State.clearSeed, removeBinding, State.onActuator,
          Vector.alter_alter]
      | setpoint _ | strain _ | crack _ | statusGroups | statusFlags | notice | noticeSeq => rfl
    · have hfree' : roleAt? (s.onService ServiceHandler.spent).slotMap index = none := hfree
      rw [hfree'] at hbody
      exact exec_done rfl hbody rfl
  · intro before index s refused busy
    refine ⟨fun args hargs => ?_, ?_, fun r hr => ?_, fun r hat hr => ?_, fun r hr hconflict => ?_⟩
    · have hbody (t : State) : mapBody index args t = refuse t .badValue := by
        unfold mapBody
        split
        · next w => exact absurd rfl (hargs w)
        · rfl
      exact exec_refused rfl (hbody _)
    · intro w high low inRange
      have hrange := roleCode_inRange w
      refine ⟨fun hout => ?_, fun hin => ?_⟩
      · have hout' := fun h => hout (hrange.2 h)
        have hnone : roleCode? w = none :=
          roleCode?_eq_none (fun h => hout' (.inl h)) fun r h => hout' (.inr ⟨r, h⟩)
        exact exec_refused rfl (by simp only [mapBody, hnone])
      · rcases hrange.1 hin with h | ⟨r, h⟩
        · exact .inl (BitVec.eq_of_toNat_eq h)
        · exact .inr ⟨r, (toNat_eq_iff (Nat.lt_trans r.code_lt (by decide))).1 h⟩
    · exact exec_refused rfl ((mapBody_bind index r _).trans (if_pos (State.roleBusy_iff.2 hr)))
    · have hat' : roleAt? (s.onService ServiceHandler.spent).slotMap index = some r := hat
      have hbusy : (s.onService ServiceHandler.spent).roleBusy r = true := State.roleBusy_iff.2 hr
      have hbody := mapBody_unbind index (s.onService ServiceHandler.spent)
      rw [hat'] at hbody
      exact exec_refused rfl (hbody.trans (if_pos hbusy))
    · have hbusy : ¬(s.onService ServiceHandler.spent).roleBusy r = true := fun h => hr (State.roleBusy_iff.1 h)
      exact exec_refused rfl ((mapBody_bind index r _).trans
        ((if_neg hbusy).trans (if_pos (State.bindConflict_iff.2 hconflict))))

end Sys2Proof
end

section
/-! PROOF. READ and its 23 views: the checks of R169 in their order, and the words of each view (R4, R52, R73, R95, R114, R130,
R143, R155, R162, R169). -/

namespace Sys2Proof.Machine

open Sys2Proof

/-! ### READ by its table kind (R169) -/

/-- A view reads nothing of the service handler beside the page that it is given. -/
theorem viewKind_onService (s : State) (f : ServiceHandler → ServiceHandler) (page : Option (Fin 4)) (index : Half)
    (kind : Nat) : viewKind (s.onService f) page index kind = viewKind s page index kind := by
  unfold viewKind
  split <;> rfl

theorem exec_read (before : State) (index : Half) (k : Word) : exec (.read index [k]) before =
    .next (before.finishBlock.answered 0x30 index
      (viewKind before.finishBlock before.finishBlock.service.page index k.toNat).1
      (viewKind before.finishBlock before.finishBlock.service.page index k.toNat).2) := by
  refine congrArg Host.Outcome.next (State.command_eq_answered (t := before.finishBlock) ?_ rfl)
  simp only [readBody, viewKind_onService]

theorem exec_read_view {before s : State} {index : Half} {k : Word} {code : ResultCode} {words : List Word}
    (h : viewKind s s.service.page index k.toNat = (code, words)) (hs : before.finishBlock = s := by rfl) :
    exec (.read index [k]) before = .next (s.answered 0x30 index code words) := by
  subst hs
  rw [exec_read, h]

theorem exec_read_badValue {before : State} {index : Half} {args : List Word}
    (h : ∀ k : Word, args = [k] → k.toNat = 0 ∨ 23 < k.toNat) :
    exec (.read index args) before = .next (before.finishBlock.answered 0x30 index .badValue []) := by
  by_cases hone : ∃ k : Word, args = [k]
  · obtain ⟨k, rfl⟩ := hone
    refine exec_read_view ?_
    have hk := h k rfl
    unfold viewKind
    split <;> simp_all
  · have hbody (page : Option (Fin 4)) (t : State) : readBody index args page t = refuse t .badValue := by
      unfold readBody
      split
      · next k => exact absurd ⟨k, rfl⟩ hone
      · rfl
    exact exec_refused rfl (hbody _ _)

/-! ### The shape of an answer: at most twelve words, none unless it is OK -/

/-- R166: a view with at most twelve words, and none unless it is OK. -/
def View.fits (v : View) : Prop := v.2.length ≤ 12 ∧ (v.1 ≠ .ok → v.2 = [])

theorem View.fits_none (code : ResultCode) : View.fits (code, []) := ⟨Nat.zero_le 12, fun _ => rfl⟩

theorem View.fits_ok {words : List Word} (h : words.length ≤ 12) : View.fits (.ok, words) :=
  ⟨h, fun hne => absurd rfl hne⟩

theorem viewOf_fits {n : Nat} (i : Option (Fin n)) {words : Fin n → List Word} (h : ∀ i, (words i).length ≤ 12) :
    (viewOf i words).fits := by
  cases i with
  | none => exact View.fits_none _
  | some i => exact View.fits_ok (h i)

theorem viewZero_fits (index : Half) {words : List Word} (h : words.length ≤ 12) : (viewZero index words).fits := by
  unfold viewZero
  split
  · exact View.fits_ok h
  · exact View.fits_none _

theorem viewMap_fits (s : State) (index : Half) : (viewMap s index).fits := by
  unfold viewMap
  split
  · exact View.fits_none _
  · split
    · exact View.fits_none _
    · exact View.fits_ok (by simp)

theorem viewShape_fits (s : State) (index : Half) : (viewShape s index).fits := by
  unfold viewShape
  split
  · exact View.fits_none _
  · exact View.fits_ok (by simp)

theorem viewPage_fits (s : State) (page : Option (Fin 4)) (index : Half) : (viewPage s page index).fits := by
  unfold viewPage
  split
  · exact View.fits_none _
  · split
    · exact View.fits_none _
    · split
      · exact View.fits_ok (by simp)
      · exact viewOf_fits _ fun a => by unfold pageEntryWords; split <;> simp

theorem viewBlock_fits (s : State) (index : Half) : (viewBlock s index).fits := by
  unfold viewBlock
  split
  · exact View.fits_none _
  · split
    · exact View.fits_none _
    · split <;> exact View.fits_ok (by simp)

theorem viewAlarm_fits (s : State) (index : Half) : (viewAlarm s index).fits := by
  unfold viewAlarm
  split
  · exact View.fits_none _
  · split <;> exact View.fits_ok (by simp)

theorem runWords_length (r : Option (Direction × Band)) : (runWords r).length = 2 := by
  unfold runWords
  split <;> rfl

theorem latestWords_length (v : Option (Int × Quality)) : (latestWords v).length ≤ 3 := by
  unfold latestWords
  split <;> simp

theorem latestWords_eq (v : Option (Int × Quality)) : latestWords v = match v with
    | none => [0, 0, 0]
    | some v => [1, intWord v.1, natWord v.2.toCode] := by
  cases v <;> rfl

theorem causeWords_length (c : Option HoldCause) : (causeWords c).length = 3 := by
  unfold causeWords
  split <;> rfl

theorem setRecordWords_length (r : Option CoincidenceRecord) : (setRecordWords r).length = 8 := by
  unfold setRecordWords
  split <;> rfl

theorem viewStrainState_fits (s : State) (index : Half) : (viewStrainState s index).fits :=
  viewOf_fits _ fun c => by
    have hrun := runWords_length (s.strain.entry c).run
    have hlatest := latestWords_length (s.strain.entry c).latest
    simp only [List.length_append, List.length_cons, List.length_nil, hrun]
    omega

/-- R166, R169: every view has at most twelve words, and none unless it is OK. -/
theorem viewKind_fits (s : State) (page : Option (Fin 4)) (index : Half) (kind : Nat) :
    (viewKind s page index kind).fits := by
  unfold viewKind
  split
  case h_1 => exact viewZero_fits _ (by simp)
  case h_2 => exact viewMap_fits s index
  case h_3 => exact viewShape_fits s index
  case h_4 => exact viewOf_fits _ fun a => by simp
  case h_5 => exact viewOf_fits _ fun g => by simp
  case h_6 => exact viewPage_fits s page index
  case h_7 => exact viewOf_fits _ fun g => by simp
  case h_8 => exact viewOf_fits _ fun g => by simp
  case h_9 => exact viewBlock_fits s index
  case h_10 => exact viewOf_fits _ fun g => by simp [causeWords_length]
  case h_11 => exact viewOf_fits _ fun g => by simp
  case h_12 => exact viewOf_fits _ fun a => by simp
  case h_13 => exact viewOf_fits _ fun c => by split <;> simp
  case h_14 => exact viewOf_fits _ fun c => by split <;> simp
  case h_15 => exact viewStrainState_fits s index
  case h_16 => exact viewOf_fits _ fun k => by split <;> simp
  case h_17 => exact viewOf_fits _ fun k => by simp
  case h_18 => exact viewOf_fits _ fun n => by simp [setRecordWords_length]
  case h_19 => exact viewAlarm_fits s index
  case h_20 => exact viewZero_fits _ (by simp)
  case h_21 => exact viewZero_fits _ (by simp)
  case h_22 => exact viewOf_fits _ fun l => by simp
  case h_23 => exact viewZero_fits _ (by simp)
  case h_24 => exact View.fits_none _

/-! ### A view by its index -/

theorem natWord_toNat {n : Nat} (x : BitVec n) : natWord x.toNat = x.setWidth 32 := BitVec.ofNat_toNat _ _

theorem viewOf_numbered {n k : Nat} {i : Fin n} (h : k = i.val + 1) (words : Fin n → List Word) :
    viewOf (numbered? n k) words = (.ok, words i) := by rw [numbered?_of_eq h]; rfl

theorem viewOf_indexed {n k : Nat} {i : Fin n} (h : k = i.val) (words : Fin n → List Word) :
    viewOf (indexed? n k) words = (.ok, words i) := by rw [indexed?_of_eq h]; rfl

theorem viewOf_numbered_none {n : Nat} {index : Half} (h : index = 0 ∨ n < index.toNat) (words : Fin n → List Word) :
    viewOf (numbered? n index.toNat) words = View.badIndex := by rw [numbered?_index.2 h]; rfl

theorem viewOf_indexed_none {n k : Nat} (h : n ≤ k) (words : Fin n → List Word) :
    viewOf (indexed? n k) words = View.badIndex := by rw [indexed?_eq_none.2 h]; rfl

theorem viewZero_of_ne {index : Half} (h : index ≠ 0) (words : List Word) : viewZero index words = View.badIndex :=
  if_neg h

theorem viewMap_of_gt {s : State} {index : Half} (h : 383 < index.toNat) : viewMap s index = View.badIndex := if_pos h

theorem viewMap_of_le {s : State} {index : Half} (h : index.toNat ≤ 383) : viewMap s index =
    match s.slotMap[index.toNat]? with
    | none => (.empty, [])
    | some b => (.ok, [natWord b.slot.toNat, natWord b.role.code, natWord s.slotMap.length]) :=
  if_neg (Nat.not_lt.2 h)

/-- R52: the sixteen entries of a table from a first entry on, two to a word. -/
theorem viewShape_of_eq {s : State} {index : Half} {t : Fin 4} {k : Fin 16}
    (h : index.toNat = 256 * t.val + 16 * k.val) : viewShape s index =
    (.ok, (List.finRange 8).map (fun j =>
      packPair ((s.shapes.entry t).entry ⟨16 * k.val + 2 * j.val, by omega⟩)
        ((s.shapes.entry t).entry ⟨16 * k.val + 2 * j.val + 1, by omega⟩))) := by
  have hvalue (i : Nat) (hi : i < 256) : ((s.shapes.entry t).toList).getD i 0 = (s.shapes.entry t).entry ⟨i, hi⟩ := by
    rw [List.getD_eq_getElem?_getD, List.getElem?_eq_getElem (by simpa using hi)]
    rfl
  simp only [viewShape, shapeIndex?_eq_some h]
  refine congrArg (Prod.mk ResultCode.ok) (List.ext_getElem (by simp) fun n hn hn' => ?_)
  have h8 : n < 8 := by simpa using hn
  simp only [List.getElem_map, List.getElem_range, List.getElem_finRange, Fin.val_cast]
  rw [hvalue _ (by omega), hvalue _ (by omega)]

theorem viewShape_of_none {s : State} {index : Half}
    (h : ∀ (t : Fin 4) (k : Fin 16), index.toNat ≠ 256 * t.val + 16 * k.val) : viewShape s index = View.badIndex := by
  simp only [viewShape, shapeIndex?_eq_none h]

theorem viewPage_group {s : State} {p : Fin 4} {index : Half} {g : Group} (h : index.toNat = 256 * (g.val + 1)) :
    viewPage s (some p) index = (.ok, [natWord (s.page g p).step, natWord (s.page g p).sumLimit]) := by
  have hg : numbered? 6 (highPart index) = some g := numbered?_of_eq (highPart_of_eq (k := 0) h (by decide))
  have hlow : lowPart index = 0 := lowPart_of_eq (i := g.val + 1) (k := 0) h (by decide)
  simp only [viewPage, hg, hlow, if_true]

theorem viewPage_entry {s : State} {p : Fin 4} {index : Half} {g : Group} {a : Actuator}
    (h : index.toNat = 256 * (g.val + 1) + (a.val + 1)) :
    viewPage s (some p) index = (.ok, pageEntryWords ((s.page g p).entries.entry a)) := by
  obtain ⟨hg, ha⟩ := numbered?_parts h
  have hlow : ¬lowPart index = 0 := by
    rw [lowPart_of_eq h (by omega)]
    omega
  simp only [viewPage, hg, ha, if_neg hlow, viewOf]

theorem viewPage_of_none {s : State} {p : Fin 4} {index : Half}
    (h : ∀ (g : Group) (n : Nat), n ≤ 16 → index.toNat ≠ 256 * (g.val + 1) + n) :
    viewPage s (some p) index = View.badIndex := by
  have hparts := index_eq_parts index
  cases hg : numbered? 6 (highPart index) with
  | none => simp only [viewPage, hg]
  | some g =>
    rw [numbered?_eq_some.1 hg] at hparts
    have hlow : 16 < lowPart index := Nat.lt_of_not_le fun hle => h g _ hle hparts
    have hne : ¬lowPart index = 0 := by omega
    simp only [viewPage, hg, if_neg hne, numbered?_eq_none.2 (.inr hlow), viewOf]

theorem viewBlock_of_eq {s : State} {index : Half} {g : Group} {n : Nat} (hn : n ≤ 15)
    (h : index.toNat = 256 * (g.val + 1) + n) : viewBlock s index =
    match (s.cycles.entry g).schedule[n]? with
    | none => (.ok, [0, 0, 0, 0])
    | some e => (.ok, [1, natWord e.target, natWord e.page.val, natWord e.endAction.toCode]) := by
  have hg : numbered? 6 (highPart index) = some g := numbered?_of_eq (highPart_of_eq h (by omega))
  have hlow : lowPart index = n := lowPart_of_eq h (by omega)
  simp only [viewBlock, hg, hlow, if_neg (Nat.not_lt.2 hn)] <;> rfl

theorem viewBlock_of_none {s : State} {index : Half}
    (h : ∀ (g : Group) (n : Nat), n ≤ 15 → index.toNat ≠ 256 * (g.val + 1) + n) : viewBlock s index = View.badIndex := by
  have hparts := index_eq_parts index
  cases hg : numbered? 6 (highPart index) with
  | none => simp only [viewBlock, hg]
  | some g =>
    rw [numbered?_eq_some.1 hg] at hparts
    have hlow : 15 < lowPart index := Nat.lt_of_not_le fun hle => h g _ hle hparts
    simp only [viewBlock, hg, if_pos hlow]

theorem ackSource?_eq_none {index : Half} (h : ∀ src : Source, index.toNat ≠ src.number) : ackSource? index = none :=
  Option.eq_none_iff_forall_ne_some.2 fun src hs => h src (ackSource?_eq_some.1 hs)

/-- R73: whether the active page is complete, told actuator by actuator. -/
theorem State.complete_eq_decide (s : State) (g : Group) : s.complete g (s.pages.entry g).active =
    decide (∀ a : Actuator, (s.actuator a).group = some g → (s.activePage g).entries.entry a ≠ none) := by
  rw [Bool.eq_iff_iff, State.complete_iff, decide_eq_true_iff]
  simp only [Option.isSome_iff_ne_none, State.activePage]

end Sys2Proof.Machine

namespace Sys2Proof
open Sys2Proof.Machine

/-- Settles O59, by the checks of READ and by the view of each table kind. -/
theorem readReturnsViews : Obligations.ReadReturnsViews := by
  unfold Obligations.ReadReturnsViews
  refine ⟨?_, fun before index args => exec_read_badValue, ?_⟩
  · intro before index args s
    by_cases hone : ∃ k : Word, args = [k]
    · obtain ⟨k, rfl⟩ := hone
      exact ⟨_, _, exec_read before index k, viewKind_fits _ _ _ _⟩
    · refine ⟨.badValue, [], exec_read_badValue fun k hk => absurd ⟨k, hk⟩ hone, Nat.zero_le 12, fun _ => rfl⟩
  · intro before index s gives refused
    refine ⟨?_, ?_, ?_, ?_, ?_, ?_, ?_, ?_, ?_, ?_, ?_, ?_, ?_, ?_, ?_, ?_, ?_, ?_, ?_, ?_, ?_, ?_, ?_, ?_, ?_⟩
    · intro h0
      subst h0
      refine ⟨exec_read_view rfl, exec_read_view ?_, exec_read_view ?_, exec_read_view ?_⟩
      · show viewNotices s 0 = _
        rw [viewNotices, natWord_toNat, AlarmTable.presentedNumber]
        rfl
      · show viewCaplog s 0 = _
        rw [viewCaplog, natWord_toNat]
        refine congrArg (fun ws => (ResultCode.ok, _ ++ ws)) (List.map_congr_left fun i _ => ?_)
        cases s.captures.watchList[i]? <;> rfl
      · show viewWatch s 0 = _
        rw [viewWatch]
        cases s.watch.state <;> rfl
    · exact fun h => ⟨exec_read_view (viewZero_of_ne h _), exec_read_view (viewZero_of_ne h _),
        exec_read_view (viewZero_of_ne h _), exec_read_view (viewZero_of_ne h _)⟩
    · exact fun h => exec_read_view (viewMap_of_gt h)
    · intro hle hlength
      refine exec_read_view ((viewMap_of_le hle).trans ?_)
      rw [List.getElem?_eq_none hlength]
    · intro b hle hb
      refine exec_read_view ((viewMap_of_le hle).trans ?_)
      simp only [hb, natWord_toNat]
    · exact fun t k h => exec_read_view (viewShape_of_eq h)
    · exact fun h => exec_read_view (viewShape_of_none h)
    · exact fun a h => ⟨exec_read_view (viewOf_numbered h _), exec_read_view (viewOf_numbered h _)⟩
    · exact fun h => ⟨exec_read_view (viewOf_numbered_none h _), exec_read_view (viewOf_numbered_none h _)⟩
    · intro g h record y
      refine ⟨exec_read_view ((viewOf_numbered h _).trans ?_), exec_read_view ((viewOf_numbered h _).trans ?_),
        exec_read_view (viewOf_numbered h _), exec_read_view ((viewOf_numbered h _).trans ?_),
        exec_read_view (viewOf_numbered h _)⟩
      · rw [natWord_toNat]
        rfl
      · dsimp only
        rw [State.complete_eq_decide]
        cases y.pendingPage <;> rfl
      · cases (s.lock g).cause with
        | none => rfl
        | some c =>
          simp only [causeWords, natWord_toNat]
          cases c.cause <;> cases c.source <;> rfl
    · exact fun h => ⟨exec_read_view (viewOf_numbered_none h _), exec_read_view (viewOf_numbered_none h _),
        exec_read_view (viewOf_numbered_none h _), exec_read_view (viewOf_numbered_none h _),
        exec_read_view (viewOf_numbered_none h _)⟩
    · intro hpage
      exact exec_read_view (by rw [hpage]; rfl)
    · intro p hpage
      refine ⟨fun g h => exec_read_view ?_, fun g a h => exec_read_view ?_, fun h => exec_read_view ?_⟩
      · rw [hpage]
        exact viewPage_group h
      · rw [hpage]
        refine (viewPage_entry h).trans ?_
        cases (s.page g p).entries.entry a with
        | none => rfl
        | some e => simp only [pageEntryWords, natWord_toNat]
      · rw [hpage]
        exact viewPage_of_none h
    · intro g n hn h
      refine exec_read_view ((viewBlock_of_eq hn h).trans ?_)
      cases (s.cycles.entry g).schedule[n]? <;> rfl
    · exact fun h => exec_read_view (viewBlock_of_none h)
    · intro c h ch
      refine ⟨exec_read_view ((viewOf_indexed h _).trans ?_), exec_read_view ((viewOf_indexed h _).trans ?_),
        exec_read_view ((viewOf_indexed h _).trans ?_)⟩
      · cases ch.cal with
        | none => rfl
        | some r =>
          obtain ⟨zero, gain, comp⟩ := r
          cases comp <;> rfl
      · cases ch.limit with
        | none => rfl
        | some r => simp only [natWord_toNat]
      · simp only [latestWords_eq]
        rfl
    · exact fun h => ⟨exec_read_view (viewOf_indexed_none h _), exec_read_view (viewOf_indexed_none h _),
        exec_read_view (viewOf_indexed_none h _)⟩
    · intro k h ch
      refine ⟨exec_read_view ((viewOf_indexed h _).trans ?_), exec_read_view (viewOf_indexed h _)⟩
      cases ch.record with
      | none => rfl
      | some r => simp only [natWord_toNat]
    · exact fun h => ⟨exec_read_view (viewOf_indexed_none h _), exec_read_view (viewOf_indexed_none h _)⟩
    · intro n h
      refine exec_read_view ((viewOf_numbered h _).trans ?_)
      dsimp only
      cases (s.sets.entry n).record with
      | none => rfl
      | some r => simp only [setRecordWords, natWord_toNat]
    · exact fun h => exec_read_view (viewOf_numbered_none h _)
    · intro src h
      have hsrc := ackSource?_eq_some.2 h
      refine ⟨fun hnone => exec_read_view ?_, fun e he => exec_read_view ?_⟩
      · show viewAlarm s index = _
        simp only [viewAlarm, hsrc, hnone]
        rfl
      · show viewAlarm s index = _
        simp only [viewAlarm, hsrc, he, natWord_toNat]
    · intro h
      refine exec_read_view ?_
      show viewAlarm s index = _
      simp only [viewAlarm, ackSource?_eq_none h]
      rfl
    · exact fun l h => exec_read_view (viewOf_numbered h _)
    · exact fun h => exec_read_view (viewOf_numbered_none h _)

end Sys2Proof
end

section
/-! PROOF. What no rule of a service command does: a refusal changes nothing and returns no words, and no command but RESTART
changes the service handler beside SVCDROP (R165, R166, R172). -/

namespace Sys2Proof.Machine

open Sys2Proof

/-! ### Answers that refuse honestly and leave the service handler -/

/-- A service handler without its SVCDROP flag, which CLEAR_FLAGS clears. -/
def ServiceHandler.undropped (v : ServiceHandler) : ServiceHandler := { v with svcDrop := false }

/-- R166: an answer on a state whose refusal changes nothing and returns no words, and that leaves the service handler but for
SVCDROP. -/
def Answer.tame (a : Answer) (u : State) : Prop :=
  a.state.service.undropped = u.service.undropped ∧ (a.code ≠ .ok → a = refuse u a.code)

@[simp] theorem Answer.tame_refuse (u : State) (code : ResultCode) : (refuse u code).tame u := ⟨rfl, fun _ => rfl⟩

@[simp] theorem Answer.tame_done {u t : State} : (done t).tame u ↔ t.service.undropped = u.service.undropped :=
  ⟨fun h => h.1, fun h => ⟨h, fun hne => absurd rfl hne⟩⟩

@[simp] theorem Answer.tame_words {u t : State} {words : List Word} :
    (answerWords t words).tame u ↔ t.service.undropped = u.service.undropped :=
  ⟨fun h => h.1, fun h => ⟨h, fun hne => absurd rfl hne⟩⟩

section
variable (index : Half) (args : List Word) (page : Option (Fin 4)) (s : State)

theorem mapBody_tame : (mapBody index args s).tame s := by
  unfold mapBody
  repeat' split
  all_goals simp [State.bindRole_service, State.unbindRole_service]

theorem actuatorBody_tame : (actuatorBody index args s).tame s := by
  unfold actuatorBody State.writeActuator
  repeat' split
  all_goals simp

theorem groupBody_tame : (groupBody index args s).tame s := by
  unfold groupBody State.writeGroup
  repeat' split
  all_goals simp

theorem pageGroupBody_tame : (pageGroupBody index args page s).tame s := by
  unfold pageGroupBody State.onPage
  repeat' split
  all_goals simp

theorem pageActBody_tame : (pageActBody index args page s).tame s := by
  unfold pageActBody State.onPage
  repeat' split
  all_goals simp

theorem shapeBody_tame : (shapeBody index args s).tame s := by
  unfold shapeBody
  repeat' split
  all_goals simp

theorem calBody_tame : (calBody index args s).tame s := by
  unfold calBody
  repeat' split
  all_goals simp

theorem limitBody_tame : (limitBody index args s).tame s := by
  unfold limitBody
  repeat' split
  all_goals simp

theorem crackBody_tame : (crackBody index args s).tame s := by
  unfold crackBody
  repeat' split
  all_goals simp

theorem coincBody_tame : (coincBody index args s).tame s := by
  unfold coincBody
  repeat' split
  all_goals simp

theorem State.removeLast_service (g : Group) : (s.removeLast g).service = s.service := by
  unfold State.removeLast
  dsimp only
  split <;> rfl

theorem blockBody_tame : (blockBody index args s).tame s := by
  unfold blockBody
  dsimp only
  repeat' split
  all_goals simp [State.removeLast_service]

theorem captureCfgBody_tame : (captureCfgBody index args s).tame s := by
  unfold captureCfgBody State.setCapture
  repeat' split
  all_goals simp

theorem markerBody_tame : (markerBody index args s).tame s := by
  unfold markerBody
  repeat' split
  all_goals simp

theorem watchBody_tame : (watchBody index args s).tame s := by
  unfold watchBody
  repeat' split
  all_goals simp

theorem floorBody_tame : (floorBody index args s).tame s := by
  unfold floorBody
  repeat' split
  all_goals simp

theorem commitBody_tame : (commitBody index args s).tame s := by
  unfold commitBody
  repeat' split
  all_goals simp

theorem State.releaseGroup_service (g : Group) : (s.releaseGroup g).service = s.service := by
  unfold State.releaseGroup State.engage State.takeSeeds
  split <;> simp

theorem releaseBody_tame : (releaseBody index args s).tame s := by
  unfold releaseBody
  repeat' split
  all_goals simp [State.releaseGroup_service]

theorem holdBody_tame : (holdBody index args s).tame s := by
  unfold holdBody
  repeat' split
  all_goals simp

theorem unloadBody_tame : (unloadBody index args s).tame s := by
  unfold unloadBody
  repeat' split
  all_goals simp

theorem disengageBody_tame : (disengageBody index args s).tame s := by
  unfold disengageBody
  repeat' split
  all_goals simp

theorem ackBody_tame : (ackBody index args s).tame s := by
  unfold ackBody
  repeat' split
  all_goals simp

theorem resetScheduleBody_tame : (resetScheduleBody index args s).tame s := by
  unfold resetScheduleBody State.restartSchedule
  repeat' split
  all_goals simp

theorem captureBody_tame : (captureBody index args s).tame s := by
  unfold captureBody
  split <;> simp

theorem clearFlagsBody_tame : (clearFlagsBody index args s).tame s := by
  unfold clearFlagsBody
  split
  · simp
  · exact Answer.tame_done.2 rfl

theorem readBody_tame : (readBody index args page s).tame s := by
  unfold readBody
  split
  · next kind =>
    refine ⟨rfl, fun hne => ?_⟩
    rw [refuse, (viewKind_fits s page index kind.toNat).2 hne]
  · simp

theorem readPendingBody_tame : (readPendingBody index args s).tame s := by
  unfold readPendingBody
  repeat' split
  all_goals simp

theorem readCaptureBody_tame : (readCaptureBody index args s).tame s := by
  unfold readCaptureBody State.dropCapture
  repeat' split
  all_goals simp

theorem readResetCauseBody_tame : (readResetCauseBody index args s).tame s := by
  unfold readResetCauseBody State.clearCause
  split <;> simp

/-- R172: a RESTART is refused, or makes the restart pending and ends the frame. -/
theorem restartBody_cases :
    (∃ code : ResultCode, code ≠ .ok ∧ (index ≠ 0 ∨ args ≠ []) ∧ restartBody index args s = refuse s code) ∨
    (index = 0 ∧ args = [] ∧
      restartBody index args s = done (s.onService (fun v => { v with restartPending := true, frameEnded := true }))) := by
  by_cases hindex : index = 0
  · by_cases hargs : args = []
    · subst hindex hargs
      exact .inr ⟨rfl, rfl, rfl⟩
    · subst hindex
      exact .inl ⟨.badValue, by decide, .inr hargs, by simp only [restartBody, bareRefusal_of_args hargs]⟩
  · exact .inl ⟨.badIndex, by decide, .inl hindex, by simp only [restartBody, bareRefusal_of_index hindex]⟩

end

/-! ### An item as what it stands for (R166, R167) -/

theorem Item.code_of_toNat {it : Item} {n : Nat} {code : Byte} (h : it.code.toNat = n) (hc : code.toNat = n) :
    it.code = code := BitVec.eq_of_toNat_eq (h.trans hc.symm)

/-- Figure 11-1: what an item that is no qualifier leaves: a RESTART's state; in bypass, for MARKER and WATCH, the state as it
stands; or the state of a command whose rule leaves the service handler and refuses honestly. -/
def Item.ReadsAs (it : Item) (s t : State) : Prop :=
  (it.code = 0x2F ∧ t = itemRestart it.index it.args s) ∨ (s.outLane.bypass = true ∧ t = s) ∨
  (it.code ≠ 0x2F ∧ ∃ body : Option (Fin 4) → State → Answer, t = s.command it.code it.index body ∧
    ∀ page u, (body page u).tame u)

theorem Item.ReadsAs.command {it : Item} {s : State} {code : Byte} {body : Option (Fin 4) → State → Answer}
    (hc : it.code = code) (hne : code ≠ 0x2F) (ht : ∀ page u, (body page u).tame u) :
    it.ReadsAs s (s.command code it.index body) :=
  .inr (.inr ⟨hc ▸ hne, body, by rw [hc], ht⟩)

theorem applyItem_readsAs {it : Item} (hq : it.isQualifier = false) (s : State) : it.ReadsAs s (applyItem it s) := by
  have hpage : ∀ n : Nat, it.code.toNat = n → n = 0x01 ∨ n = 0x02 → False := by
    rintro n h (rfl | rfl)
    · simp [Item.isQualifier, codePage, Item.code_of_toNat (code := 0x01) h rfl] at hq
    · simp [Item.isQualifier, codeQuiet, Item.code_of_toNat (code := 0x02) h rfl] at hq
  unfold applyItem
  split
  case h_1 h => exact (hpage _ h (.inl rfl)).elim
  case h_2 h => exact (hpage _ h (.inr rfl)).elim
  case h_3 h => exact .command (Item.code_of_toNat h rfl) (by decide) fun _ u => mapBody_tame _ _ u
  case h_4 h => exact .command (Item.code_of_toNat h rfl) (by decide) fun _ u => actuatorBody_tame _ _ u
  case h_5 h => exact .command (Item.code_of_toNat h rfl) (by decide) fun _ u => groupBody_tame _ _ u
  case h_6 h => exact .command (Item.code_of_toNat h rfl) (by decide) fun p u => pageGroupBody_tame _ _ p u
  case h_7 h => exact .command (Item.code_of_toNat h rfl) (by decide) fun p u => pageActBody_tame _ _ p u
  case h_8 h => exact .command (Item.code_of_toNat h rfl) (by decide) fun _ u => shapeBody_tame _ _ u
  case h_9 h => exact .command (Item.code_of_toNat h rfl) (by decide) fun _ u => calBody_tame _ _ u
  case h_10 h => exact .command (Item.code_of_toNat h rfl) (by decide) fun _ u => limitBody_tame _ _ u
  case h_11 h => exact .command (Item.code_of_toNat h rfl) (by decide) fun _ u => crackBody_tame _ _ u
  case h_12 h => exact .command (Item.code_of_toNat h rfl) (by decide) fun _ u => coincBody_tame _ _ u
  case h_13 h => exact .command (Item.code_of_toNat h rfl) (by decide) fun _ u => blockBody_tame _ _ u
  case h_14 h => exact .command (Item.code_of_toNat h rfl) (by decide) fun _ u => captureCfgBody_tame _ _ u
  case h_15 h =>
    unfold itemMarker
    split
    · next hbypass => exact .inr (.inl ⟨hbypass, rfl⟩)
    · exact .command (Item.code_of_toNat h rfl) (by decide) fun _ u => markerBody_tame _ _ u
  case h_16 h =>
    unfold itemWatch
    split
    · next hbypass => exact .inr (.inl ⟨hbypass, rfl⟩)
    · exact .command (Item.code_of_toNat h rfl) (by decide) fun _ u => watchBody_tame _ _ u
  case h_17 h => exact .command (Item.code_of_toNat h rfl) (by decide) fun _ u => floorBody_tame _ _ u
  case h_18 h => exact .command (Item.code_of_toNat h rfl) (by decide) fun _ u => commitBody_tame _ _ u
  case h_19 h => exact .command (Item.code_of_toNat h rfl) (by decide) fun _ u => releaseBody_tame _ _ u
  case h_20 h => exact .command (Item.code_of_toNat h rfl) (by decide) fun _ u => holdBody_tame _ _ u
  case h_21 h => exact .command (Item.code_of_toNat h rfl) (by decide) fun _ u => unloadBody_tame _ _ u
  case h_22 h => exact .command (Item.code_of_toNat h rfl) (by decide) fun _ u => disengageBody_tame _ _ u
  case h_23 h => exact .command (Item.code_of_toNat h rfl) (by decide) fun _ u => ackBody_tame _ _ u
  case h_24 h => exact .command (Item.code_of_toNat h rfl) (by decide) fun _ u => resetScheduleBody_tame _ _ u
  case h_25 h => exact .command (Item.code_of_toNat h rfl) (by decide) fun _ u => captureBody_tame _ _ u
  case h_26 h => exact .command (Item.code_of_toNat h rfl) (by decide) fun _ u => clearFlagsBody_tame _ _ u
  case h_27 h => exact .inl ⟨Item.code_of_toNat h rfl, rfl⟩
  case h_28 h => exact .command (Item.code_of_toNat h rfl) (by decide) fun p u => readBody_tame _ _ p u
  case h_29 h => exact .command (Item.code_of_toNat h rfl) (by decide) fun _ u => readPendingBody_tame _ _ u
  case h_30 h => exact .command (Item.code_of_toNat h rfl) (by decide) fun _ u => readCaptureBody_tame _ _ u
  case h_31 h => exact .command (Item.code_of_toNat h rfl) (by decide) fun _ u => readResetCauseBody_tame _ _ u
  case h_32 =>
    refine .inr (.inr ⟨?_, _, rfl, fun _ u => Answer.tame_refuse u _⟩)
    intro hcode
    simp_all

/-- R166: a command whose result is not OK left nothing but that result, where its rule keeps the results of the frame and
refuses honestly. -/
theorem command_of_refused_result {s : State} {code : Byte} {index : Half} {r : ItemResult}
    {body : Option (Fin 4) → State → Answer} {a : Answer}
    (ha : body s.service.page (s.onService ServiceHandler.spent) = a)
    (hkeeps : a.state.service.results = s.service.results)
    (hrefuses : a.code ≠ .ok → a = refuse (s.onService ServiceHandler.spent) a.code)
    (hresults : (s.command code index body).service.results = s.service.results ++ [r]) (hr : r.result ≠ .ok) :
    s.command code index body = s.answered code index r.result [] := by
  by_cases hok : a.code = .ok
  · exfalso
    unfold State.command at hresults
    simp only [ha, hok, and_true] at hresults
    split at hresults
    · rw [hkeeps] at hresults
      simpa using congrArg List.length hresults
    · simp only [State.onService_service, ServiceHandler.withResult_results, hkeeps, List.append_cancel_left_eq,
        List.singleton_inj] at hresults
      exact hr (hresults ▸ rfl)
  · have hcommand : s.command code index body = s.answered code index a.code [] :=
      State.command_refused (ha.trans (hrefuses hok))
    rw [hcommand, State.answered_results, if_neg fun h => hok h.2, List.append_cancel_left_eq,
      List.singleton_inj] at hresults
    rw [hcommand, ← hresults]

theorem results_of_undropped {v w : ServiceHandler} (h : v.undropped = w.undropped) : v.results = w.results := by
  have hresults := congrArg ServiceHandler.results h
  exact hresults

end Sys2Proof.Machine

namespace Sys2Proof
open Sys2Proof.Machine

/-- Settles O44, by the rule of each command refusing honestly. -/
theorem refusedCommandChangesNothing : Obligations.RefusedCommandChangesNothing := by
  unfold Obligations.RefusedCommandChangesNothing
  intro c code index before t r s hc hexec hresults hr
  obtain ⟨it, hit, hq, rfl, rfl⟩ : ∃ it, itemOf? c = some it ∧ it.isQualifier = false ∧ it.code = code ∧
      it.index = index := by
    unfold commandItem? at hc
    split at hc
    · exact nomatch hc
    · next it hit =>
      rw [Option.ite_none_left_eq_some, Option.some.injEq, Prod.mk.injEq, Bool.not_eq_true] at hc
      exact ⟨it, hit, hc.1, hc.2.1, hc.2.2⟩
  obtain rfl : applyItem it s = t := Host.Outcome.next.inj ((exec_of_itemOf? hit before).symm.trans hexec)
  rcases applyItem_readsAs hq s with ⟨hcode, heq⟩ | ⟨-, heq⟩ | ⟨-, body, heq, htame⟩ <;> rw [heq] at hresults ⊢
  · rw [hcode]
    rcases restartBody_cases it.index it.args (s.onService ServiceHandler.spent) with ⟨rc, -, -, hbody⟩ | ⟨-, -, hbody⟩
    · exact command_of_refused_result hbody rfl (fun _ => rfl) hresults hr
    · exact command_of_refused_result hbody rfl (fun h => absurd rfl h) hresults hr
  · simpa using congrArg List.length hresults
  · have ht := htame s.service.page (s.onService ServiceHandler.spent)
    exact command_of_refused_result rfl ((results_of_undropped ht.1).trans rfl) ht.2 hresults hr

end Sys2Proof
end

section
/-! PROOF. The lanes and their ports: arrival in normal processing and in bypass, passing through, and what a port goes on to at
the end of a sending (R1, R4 to R10, R19, R157). -/

namespace Sys2Proof.Machine

open Sys2Proof

/-! ### The ports (R7) -/

/-- R7: OUT-OUT begins a ready frame. -/
theorem State.startPort_outbound_ready {s : State} {b : List Byte} (h : s.outLane.hand = some (.ready b)) :
    s.startPort .outbound = { s with outLane := { s.outLane with hand := some (.sending b) } } := by
  rw [State.startPort_outbound, Lane.startSending, h]

/-- R7: OUT-OUT has nothing to begin. -/
theorem State.startPort_outbound_none {s : State} (h : ∀ b : List Byte, s.outLane.hand ≠ some (.ready b)) :
    s.startPort .outbound = s := by
  rw [State.startPort_outbound, Lane.startSending]
  split
  · next b hb => exact absurd hb (h b)
  · rfl

/-- R7: RET-OUT waits while a reply is in sending. -/
theorem State.startPort_ret_of_reply {s : State} (h : s.service.replySending = true) : s.startPort .ret = s := by
  simp only [State.startPort, h, Bool.or_true, if_true]

/-- R7: RET-OUT waits while a frame of the return lane is in sending. -/
theorem State.startPort_ret_of_sending {s : State} {b : List Byte} (h : s.retLane.hand = some (.sending b)) :
    s.startPort .ret = s := by
  simp only [State.startPort, Lane.isSending, h, Bool.true_or, if_true]

/-- R7: RET-OUT, free, begins a ready frame of the return lane. -/
theorem State.startPort_ret_ready {s : State} {b : List Byte} (h : s.retLane.hand = some (.ready b))
    (hr : s.service.replySending = false) :
    s.startPort .ret = { s with retLane := { s.retLane with hand := some (.sending b) } } := by
  simp only [State.startPort, Lane.isSending, Lane.isReady, h, hr, Bool.or_self, Bool.false_eq_true, if_false, if_true,
    State.onLane_ret, Lane.startSending]

/-- R7: RET-OUT, free and with no frame of the return lane ready, begins the head reply if there is one. -/
theorem State.startPort_ret_idle {s : State} (hready : ∀ b : List Byte, s.retLane.hand ≠ some (.ready b))
    (hsending : ∀ b : List Byte, s.retLane.hand ≠ some (.sending b)) (hr : s.service.replySending = false) :
    s.startPort .ret = { s with service := { s.service with replySending := !s.service.replies.isEmpty } } := by
  have hnoready : s.retLane.isReady = false := by
    unfold Lane.isReady
    split
    · next b hb => exact absurd hb (hready b)
    · rfl
  have hnosending : s.retLane.isSending = false := by
    unfold Lane.isSending
    split
    · next b hb => exact absurd hb (hsending b)
    · rfl
  simp only [State.startPort, hnoready, hnosending, hr, Bool.or_self, Bool.false_eq_true, if_false]
  cases s.service.replies.isEmpty with
  | true => rw [if_pos rfl, Bool.not_true, ← hr]
  | false => rw [if_neg (by decide)]; rfl

/-- R7: a frame put in hand at a free port goes into sending at once. -/
theorem State.startPort_ready {s : State} {l : LaneId} {b : List Byte} (h : (s.lane l).hand = some (.ready b))
    (hr : l = .ret → s.service.replySending = false) :
    s.startPort l = s.onLane l (fun x => { x with hand := some (.sending b) }) := by
  cases l with
  | outbound => exact State.startPort_outbound_ready h
  | ret => exact State.startPort_ret_ready h (hr rfl)

/-! ### Going on without the work of a block (R7, R10) -/

theorem Lane.takeBypassed_of_hand {l : Lane} {h : Hand} (hh : l.hand = some h) : l.takeBypassed = l := by
  unfold Lane.takeBypassed
  split
  · next hn _ => exact nomatch hh.symm.trans hn
  · rfl

theorem Lane.takeBypassed_of_checked {l : Lane} (h : ∀ w : Waiting, l.waiting.head? = some w → w.bypassed = false) :
    l.takeBypassed = l := by
  unfold Lane.takeBypassed
  split
  · next w rest _ hw => rw [h w (by rw [hw]; rfl), if_neg (by decide)]
  · rfl

theorem Lane.takeBypassed_of_bypassed {l : Lane} {w : Waiting} {rest : List Waiting} (hh : l.hand = none)
    (hw : l.waiting = w :: rest) (hb : w.bypassed = true) :
    l.takeBypassed = { l with hand := some (.ready w.bytes), waiting := rest } := by
  simp only [Lane.takeBypassed, hh, hw, hb, if_true]

theorem State.onLane_id (s : State) (l : LaneId) {f : Lane → Lane} (h : f (s.lane l) = s.lane l) : s.onLane l f = s := by
  cases l with
  | outbound => rw [State.onLane_outbound, show f s.outLane = s.outLane from h]
  | ret => rw [State.onLane_ret, show f s.retLane = s.retLane from h]

theorem State.onLane_congr {s : State} {l : LaneId} {f k : Lane → Lane} (h : f (s.lane l) = k (s.lane l)) :
    s.onLane l f = s.onLane l k := by
  cases l with
  | outbound => rw [State.onLane_outbound, State.onLane_outbound, show f s.outLane = k s.outLane from h]
  | ret => rw [State.onLane_ret, State.onLane_ret, show f s.retLane = k s.retLane from h]

/-- R10: with a frame in hand a lane takes no other. -/
theorem State.settle_of_hand {s : State} {l : LaneId} {h : Hand} (hh : (s.lane l).hand = some h) :
    s.settle l = s.startPort l := by
  rw [State.settle, State.onLane_id s l (Lane.takeBypassed_of_hand hh)]

/-- R7, R10: a frame that arrived in bypass, at the head with nothing in hand, goes out at once through a free port. -/
theorem State.settle_bypassed {s : State} {l : LaneId} {w : Waiting} {rest : List Waiting} (hh : (s.lane l).hand = none)
    (hw : (s.lane l).waiting = w :: rest) (hb : w.bypassed = true) (hr : l = .ret → s.service.replySending = false) :
    s.settle l = s.onLane l (fun x => { x with waiting := rest, hand := some (.sending w.bytes) }) := by
  have htaken : s.onLane l Lane.takeBypassed =
      s.onLane l (fun x => { x with hand := some (.ready w.bytes), waiting := rest }) :=
    State.onLane_congr (Lane.takeBypassed_of_bypassed hh hw hb)
  rw [State.settle, htaken, State.startPort_ready (b := w.bytes) (by rw [State.lane_onLane_same]) fun hl => by
    rw [State.onLane_service]; exact hr hl, State.onLane_onLane]

/-- R10: while a reply is in sending at RET-OUT, such a frame stands ready there. -/
theorem State.settle_bypassed_of_reply {s : State} {w : Waiting} {rest : List Waiting} (hh : s.retLane.hand = none)
    (hw : s.retLane.waiting = w :: rest) (hb : w.bypassed = true) (hr : s.service.replySending = true) :
    s.settle .ret = s.onLane .ret (fun x => { x with waiting := rest, hand := some (.ready w.bytes) }) := by
  have htaken : s.onLane .ret Lane.takeBypassed =
      s.onLane .ret (fun x => { x with hand := some (.ready w.bytes), waiting := rest }) :=
    State.onLane_congr (Lane.takeBypassed_of_bypassed hh hw hb)
  rw [State.settle, htaken, State.startPort_ret_of_reply (s := s.onLane .ret _) hr]

/-! ### Arrival in normal processing (R1, R4, R19, R157) -/

theorem isSweep_iff {bytes : List Byte} : isSweep bytes = true ↔ frameKind bytes = 0xA1 := by
  rw [isSweep, kindSweep, beq_iff_eq]

theorem isServiceTo_iff {node : BitVec 6} {bytes : List Byte} :
    isServiceTo node bytes = true ↔ frameKind bytes = 0xA2 ∧ byteAt bytes 3 = node.setWidth 8 := by
  rw [isServiceTo, kindService, serviceDestination, Bool.and_eq_true, beq_iff_eq, beq_iff_eq]

/-- R157: a report of a controller sweep, field by field. -/
theorem SweepWatch.report_eq (w : SweepWatch) (number : Half) : w.report number =
    { w with
      lastController := number
      timer := some w.settings.interval
      state := .running
      originating := if w.state = .expired then false else w.originating
      standTimer := if w.state = .expired then none else w.standTimer } := by
  unfold SweepWatch.report SweepWatch.endOrigination
  split <;> rfl

/-- R5, R157: which arrival is reported, and how. -/
theorem State.reportArrival_eq (s : State) (l : LaneId) (bytes : List Byte) : s.reportArrival l bytes =
    if l = .outbound ∧ frameKind bytes = 0xA1 ∧ byteAt bytes 3 = 0 then
      s.onWatch (fun w => w.report (halfAt bytes 5))
    else s := by
  have hcond : (decide (l = .outbound) && isSweep bytes && (readSweep bytes).origin == originController) = true ↔
      l = .outbound ∧ frameKind bytes = 0xA1 ∧ byteAt bytes 3 = 0 := by
    rw [Bool.and_eq_true, Bool.and_eq_true, isSweep_iff, decide_eq_true_iff, beq_iff_eq, and_assoc]
    rfl
  unfold State.reportArrival
  simp only [hcond]
  rfl

theorem State.mapAtArrival_eq (s : State) (l : LaneId) (bytes : List Byte) : s.mapAtArrival l bytes =
    if l = .ret ∧ frameKind bytes = 0xA1 then s.slotMap else [] := by
  simp only [State.mapAtArrival, Bool.and_eq_true, decide_eq_true_iff, isSweep_iff]

theorem State.reportArrival_lane (s : State) (l k : LaneId) (bytes : List Byte) :
    (s.reportArrival l bytes).lane k = s.lane k := by
  unfold State.reportArrival
  split <;> cases k <;> rfl

theorem State.arriveChecked_bad {s : State} {l : LaneId} {bytes : List Byte} (h : frameGood bytes = false) :
    s.arriveChecked l bytes = s.onLane l Lane.countBad := by
  rw [State.arriveChecked, h, if_neg (by decide)]

theorem State.arriveChecked_room {s : State} {l : LaneId} {bytes : List Byte} (h : frameGood bytes = true)
    (hroom : (s.lane l).waiting.length < 4) : s.arriveChecked l bytes = (s.reportArrival l bytes).onLane l (fun x =>
      { x with waiting := x.waiting ++
          [{ bytes := bytes, bypassed := false, map := s.mapAtArrival l bytes }] }) := by
  simp only [State.arriveChecked, h, if_true, State.reportArrival_lane]
  exact if_pos (decide_eq_true hroom)

theorem State.arriveChecked_full {s : State} {l : LaneId} {bytes : List Byte} (h : frameGood bytes = true)
    (hfull : ¬(s.lane l).waiting.length < 4) :
    s.arriveChecked l bytes = (s.reportArrival l bytes).onLane l Lane.countBad := by
  simp only [State.arriveChecked, h, if_true, State.reportArrival_lane]
  exact if_neg fun hroom => hfull (of_decide_eq_true hroom)

theorem State.arriveBypassed_full {s : State} {l : LaneId} (h : 4 ≤ (s.lane l).waiting.length) (bytes : List Byte) :
    s.arriveBypassed l bytes = s := if_neg fun hroom => Nat.not_lt.2 h (of_decide_eq_true hroom)

theorem State.arriveBypassed_room {s : State} {l : LaneId} (h : (s.lane l).waiting.length < 4) (bytes : List Byte) :
    s.arriveBypassed l bytes = (s.onLane l (fun x =>
      { x with waiting := x.waiting ++ [{ bytes := bytes, bypassed := true, map := [] }] })).settle l :=
  if_pos (decide_eq_true h)

/-! ### Passing through and the end of a sending (R5 to R8) -/

theorem State.frameSent_of_sending {s : State} {l : LaneId} {b : List Byte} (h : (s.lane l).hand = some (.sending b)) :
    s.frameSent l = (s.onLane l (fun x => { x with hand := none })).settle l := by
  rw [State.frameSent, Lane.isSending, h, if_pos rfl]

theorem State.passesThrough_of {s : State} {l : LaneId} {bytes : List Byte} (hsweep : frameKind bytes ≠ 0xA1)
    (hservice : l = .outbound → ¬(frameKind bytes = 0xA2 ∧ byteAt bytes 3 = s.unit.nodeAddress.setWidth 8)) :
    s.passesThrough l bytes = true := by
  have hns : isSweep bytes = false := Bool.eq_false_iff.2 fun h => hsweep (isSweep_iff.1 h)
  cases l with
  | outbound =>
    have hnt : isServiceTo s.unit.nodeAddress bytes = false :=
      Bool.eq_false_iff.2 fun h => hservice rfl (isServiceTo_iff.1 h)
    simp only [State.passesThrough, hns, hnt, Bool.not_false, Bool.and_self]
  | ret => simp only [State.passesThrough, hns, Bool.not_false]

end Sys2Proof.Machine

namespace Sys2Proof
open Sys2Proof.Machine

/-- Settles O17, by whether the frame is good and whether the lane has room. -/
theorem checkedArrival : Obligations.CheckedArrival := by
  unfold Obligations.CheckedArrival
  intro l bytes s hbypass counted told
  have harrive : s.arrive l bytes = s.arriveChecked l bytes := if_neg (by rw [hbypass]; decide)
  have htold : told = s.reportArrival l bytes := by
    rw [State.reportArrival_eq]
    simp only [told, SweepWatch.report_eq]
  refine congrArg Host.Outcome.next (harrive.trans ?_)
  rw [htold, ← State.mapAtArrival_eq]
  split_ifs with hgood hroom
  · exact State.arriveChecked_bad hgood
  · exact State.arriveChecked_room (Bool.not_eq_false _ ▸ hgood) hroom
  · exact State.arriveChecked_full (Bool.not_eq_false _ ▸ hgood) hroom

/-- Settles O18, by the room of the lane and what it has in hand. -/
theorem bypassArrival : Obligations.BypassArrival := by
  unfold Obligations.BypassArrival
  intro l bytes s hbypass
  have harrive : exec (.frameArrival l bytes) s = .next (s.arriveBypassed l bytes) :=
    congrArg Host.Outcome.next (if_pos hbypass)
  rw [harrive]
  refine ⟨fun hfull => ?_, fun sent hroom hsent => ?_, fun hwaiting hhand hreply => ?_,
    fun hwaiting hhand hl hreply => ?_⟩
  · rw [State.arriveBypassed_full hfull]
  · rw [State.arriveBypassed_room hroom, State.settle_of_hand (h := .sending sent) (by rw [State.lane_onLane_same, hsent])]
    cases l with
    | outbound =>
      rw [State.startPort_outbound_none fun b hb => ?_]
      exact nomatch hsent.symm.trans hb
    | ret => rw [State.startPort_ret_of_sending (b := sent) (by exact hsent)]
  · rw [State.arriveBypassed_room (by rw [hwaiting]; decide),
      State.settle_bypassed (by rw [State.lane_onLane_same, hhand])
        (by rw [State.lane_onLane_same, hwaiting, List.nil_append]) rfl
        fun hl => by rw [State.onLane_service]; exact hreply hl, State.onLane_onLane]
    refine congrArg Host.Outcome.next (State.onLane_congr ?_)
    simp only [hwaiting]
  · subst hl
    rw [State.arriveBypassed_room (by rw [hwaiting]; decide),
      State.settle_bypassed_of_reply (w := { bytes := bytes, bypassed := true, map := [] }) (rest := [])
        (by exact hhand) (by exact congrArg (· ++ _) hwaiting) rfl (by exact hreply), State.onLane_onLane]
    refine congrArg Host.Outcome.next (State.onLane_congr ?_)
    simp only [hwaiting]

/-- Settles O22, by the frame going through hand into sending. -/
theorem passThroughSendsUnchanged : Obligations.PassThroughSendsUnchanged := by
  unfold Obligations.PassThroughSendsUnchanged
  intro l s w rest hhand hwaiting hchecked hsweep hservice hreply
  have hnext : (s.lane l).next? = some w := Lane.next?_eq_some.2 ⟨hhand, by rw [hwaiting]; rfl, hchecked⟩
  refine congrArg Host.Outcome.next (?_ : s.passThrough l = _)
  simp only [State.passThrough, hnext, State.passesThrough_of hsweep hservice, if_true, State.onLane_onLane]
  rw [State.startPort_ready (b := w.bytes) (by rw [State.lane_onLane_same]; rfl)
    fun hl => by rw [State.onLane_service]; exact hreply hl, State.onLane_onLane]
  refine State.onLane_congr ?_
  simp only [Lane.dropHead, Lane.ready, hwaiting, List.tail_cons]

/-- Settles O23, by what stands at the head of the lane. -/
theorem frameSentFreesPort : Obligations.FrameSentFreesPort := by
  unfold Obligations.FrameSentFreesPort
  refine ⟨fun s b hhand hhead => ?_, fun s b hhand hreply hhead => ?_, fun l s b w rest hhand hreply hwaiting hbypassed => ?_⟩
  · refine congrArg Host.Outcome.next ((State.frameSent_of_sending (l := .outbound) hhand).trans ?_)
    rw [State.settle, State.onLane_id _ _ (Lane.takeBypassed_of_checked (by exact hhead))]
    exact State.startPort_outbound_none fun b hb => Option.some_ne_none _ hb.symm
  · refine congrArg Host.Outcome.next ((State.frameSent_of_sending (l := .ret) hhand).trans ?_)
    rw [State.settle, State.onLane_id _ _ (Lane.takeBypassed_of_checked (by exact hhead))]
    exact State.startPort_ret_idle (fun b hb => Option.some_ne_none _ hb.symm)
      (fun b hb => Option.some_ne_none _ hb.symm) hreply
  · refine congrArg Host.Outcome.next ((State.frameSent_of_sending hhand).trans ?_)
    rw [State.settle_bypassed (by rw [State.lane_onLane_same]) (by rw [State.lane_onLane_same]; exact hwaiting) hbypassed
      fun hl => by rw [State.onLane_service]; exact hreply hl, State.onLane_onLane]

end Sys2Proof
end

section
/-! PROOF. Reset and what follows it: the reset values, assertion, release and start-up, the end of the head reply's sending, the
expiry of the sweep watch, and the marker lines (R9, R11, R74, R87, R151 to R158, R171, R172). -/

namespace Sys2Proof.Machine

open Sys2Proof

/-! ### Assertion (R9, R163, R172) -/

/-- R9: what an assertion leaves of a lane. -/
theorem Lane.asserted_eq (l : Lane) : l.asserted =
    { Lane.atReset with hand := match l.hand with
        | some (.sending b) => some (.sending b)
        | _ => none } := by
  unfold Lane.asserted Lane.isSending
  rcases l.hand with _ | (_ | _ | _) <;> rfl

/-! ### The end of the head reply's sending (R171, R172) -/

section
variable {s : State} {r : Reply} {rest : List Reply}

theorem State.replySent_of_restart (hs : s.service.replySending = true) (hr : s.service.replies = r :: rest)
    (h : r.restart = true ∧ s.service.restartPending = true) :
    s.replySent = (s.onService (fun v => { v with replies := rest, replySending := false })).serviceRestart := by
  simp only [State.replySent, hs, hr, h.1, h.2, Bool.and_self, if_true]

theorem State.replySent_of_no_restart (hs : s.service.replySending = true) (hr : s.service.replies = r :: rest)
    (h : ¬(r.restart = true ∧ s.service.restartPending = true)) :
    s.replySent = (s.onService (fun v => { v with replies := rest, replySending := false })).startPort .ret := by
  have hcond : (r.restart && s.service.restartPending) = false := by
    rw [Bool.eq_false_iff, ne_eq, Bool.and_eq_true]
    exact h
  simp only [State.replySent, hs, hr, hcond, Bool.false_eq_true, if_false]

end

/-! ### Marker lines (R151, R153, R154) -/

theorem GroupState.isHeld_iff (st : GroupState) :
    st.isHeld = true ↔ st = .engaging ∨ st = .hold ∨ st = .unload ∨ st = .rest := by
  cases st <;> simp [GroupState.isHeld]

theorem State.lineActive_of_pulse {s : State} {l : Line} (h : (s.markers.entry l).kind.isPulse = true) :
    s.lineActive l = (s.markers.entry l).timer.isSome := by
  unfold State.lineActive
  cases hk : (s.markers.entry l).kind <;> simp_all [MarkerKind.isPulse]

theorem State.lineActive_held {s : State} {l : Line} {g : Group} (hk : (s.markers.entry l).kind = .held)
    (hg : (s.markers.entry l).group = g.val + 1) : s.lineActive l = (s.groupState g).isHeld := by
  simp only [State.lineActive, hk, numbered?_of_eq hg]

theorem State.lineActive_notice {s : State} {l : Line} (hk : (s.markers.entry l).kind = .notice) :
    s.lineActive l = s.alarm.presented.isSome := by
  simp only [State.lineActive, hk]

theorem State.lineActive_onMarker_of_ne {s : State} {l k : Line} (h : k ≠ l) (f : MarkerLine → MarkerLine) :
    (s.onMarker l f).lineActive k = s.lineActive k := by
  unfold State.lineActive
  rw [State.onMarker_markers, Vector.entry_alter_of_ne _ _ h]
  rfl

/-- Every step keeps a condition that every `Change` keeps, and that does not read the queue. -/
theorem State.markersShut_step {s t : State} (hs : s.markersShut) (h : step s = .next t) : t.markersShut :=
  step_keeps (P := State.markersShut) (fun _ _ h => h) (fun _ _ hc hs => hc.markersShut hs) hs h

theorem State.watchShut_step {s t : State} (hs : s.watchShut) (h : step s = .next t) : t.watchShut :=
  step_keeps (P := State.watchShut) (fun _ _ h => h) (fun _ _ hc hs => hc.watchShut hs) hs h

/-! ### The expiry of the sweep watch (R87, R158) -/

/-- R82, R87: an UNLOAD raise on all groups finds a group in RUN. -/
theorem State.lock_raised_unload {s : State} {r : Raise} {g : Group} (hentry : s.alarm.entry? r.source = none)
    (hmask : r.mask.getLsbD g.val = true) (haction : r.action = .unload) (hrun : s.groupState g = .run) :
    (s.raised r).lock g =
      { s.lock g with state := .unload, engageCount := 0, reportDue := false, cause := some r.cause } := by
  have hunder : (s.lock g).state.under r.action = some .unload := by
    rw [show (s.lock g).state = .run from hrun, haction]
    rfl
  rw [State.lock_raised, hentry, Option.isSome_none, if_neg (by decide), Raise.onGroup, if_pos hmask, hunder]

theorem State.watchExpiry_of_running {s : State} (h : s.watch.state = .running) : s.watchExpiry =
    if ((s.onWatch (fun w => { w with state := .expired, timer := none })).raised
        s.watch.timeoutRaise).watch.settings.enable then
      ((s.onWatch (fun w => { w with state := .expired, timer := none })).raised s.watch.timeoutRaise).onWatch
        SweepWatch.startOrigination
    else (s.onWatch (fun w => { w with state := .expired, timer := none })).raised s.watch.timeoutRaise :=
  if_pos h

end Sys2Proof.Machine

namespace Sys2Proof
open Sys2Proof.Machine

/-- Settles O3, by the reset content of each table. -/
theorem resetValues : Obligations.ResetValues := by
  unfold Obligations.ResetValues
  have hmarker (l : Line) : State.reset.markers.entry l = MarkerLine.atReset := Vector.entry_fill _ _
  have hactive (l : Line) : State.reset.lineActive l = false := by
    rw [State.lineActive, hmarker]
    rfl
  refine ⟨fun l => ?_, rfl, rfl, fun a => ?_, fun g => ?_, fun t i => ?_, State.reset_strain,
    fun k => Vector.entry_fill _ _, fun n => Vector.entry_fill _ _, rfl, rfl, fun l => ⟨hmarker l, hactive l, ?_⟩,
    rfl, rfl, rfl, rfl⟩
  · cases l <;> exact ⟨rfl, rfl, rfl, rfl⟩
  · rw [State.reset_output, State.reset_actuator]
    exact ⟨rfl, rfl, rfl, rfl, rfl, rfl, rfl, rfl⟩
  · have hcycles : State.reset.cycles.entry g = GroupCycles.atReset := Vector.entry_fill _ _
    rw [State.reset_shape, State.reset_groupState, State.reset_lock, hcycles, State.reset_pages]
    refine ⟨rfl, rfl, rfl, rfl, rfl, rfl, rfl, rfl, rfl, rfl, rfl, rfl, fun p => ?_⟩
    rw [State.reset_page]
    exact ⟨rfl, rfl, fun a => Vector.entry_fill _ _⟩
  · have htable : State.reset.shapes.entry t = fill 256 0 := Vector.entry_fill _ _
    rw [htable, Vector.entry_fill]
  · rw [State.pinHigh, hactive, hmarker]
    rfl

/-- Settles O24, by whether the reply carries a pending RESTART and what RET-OUT finds. -/
theorem replySentLeavesQueue : Obligations.ReplySentLeavesQueue := by
  unfold Obligations.ReplySentLeavesQueue
  intro s r rest hsending hreplies hfree kept
  have hkept (x : Lane) : kept x = x.asserted := (Lane.asserted_eq x).symm
  refine congrArg Host.Outcome.next (?_ : s.replySent = _)
  rw [hkept, hkept]
  split_ifs with hrestart
  · rw [State.replySent_of_restart hsending hreplies hrestart]
    rfl
  · rw [State.replySent_of_no_restart hsending hreplies hrestart]
    split
    · next b hb => exact State.startPort_ret_ready (s := s.onService _) hb rfl
    · next hno =>
      exact State.startPort_ret_idle (s := s.onService _) (fun b hb => hno b hb) hfree rfl

/-- Settles O25, by what each event of the reset unit writes. -/
theorem resetAndStartup : Obligations.ResetAndStartup := by
  unfold Obligations.ResetAndStartup
  constructor
  · intro s kept left
    have hkept (x : Lane) : kept x = x.asserted := (Lane.asserted_eq x).symm
    have hleft : left = { s.assertReset with unit := State.reset.unit } := by
      simp only [left]
      rw [hkept, hkept]
      rfl
    constructor
    · intro hline
      have hassert : s.lineAssert = _ := if_neg (by rw [hline]; decide)
      refine congrArg Host.Outcome.next (hassert.trans ?_)
      rw [hleft]
      rfl
    · refine congrArg Host.Outcome.next (?_ : s.powerUp = _)
      rw [hleft]
      rfl
  · intro s
    refine ⟨fun hline => ?_, fun hsteady => ?_, fun straps hstartup hstraps => ?_, fun hstartup => ?_⟩
    · exact congrArg Host.Outcome.next (if_pos hline)
    · exact congrArg Host.Outcome.next (if_neg (by rw [hsteady]; decide))
    · exact congrArg Host.Outcome.next ((if_pos hstartup).trans (if_neg hstraps))
    · exact congrArg Host.Outcome.next ((if_pos hstartup).trans (if_pos rfl))

/-- Settles O35, by the raise of source 0 and the start of origination. -/
theorem watchExpires : Obligations.WatchExpires := by
  unfold Obligations.WatchExpires
  intro s hrunning expired taken
  have hwatch : taken.watch = expired.watch := State.raised_watch _ _
  constructor
  · refine congrArg Host.Outcome.next ((State.watchExpiry_of_running hrunning).trans ?_)
    have henable : taken.watch.settings.enable = s.watch.settings.enable := by rw [hwatch]; rfl
    show (if taken.watch.settings.enable = true then taken.onWatch SweepWatch.startOrigination else taken) = _
    rw [henable]
    split_ifs
    · have hstart : SweepWatch.startOrigination taken.watch =
          { taken.watch with
            originating := true
            standTimer := some s.watch.settings.period
            lastOriginated := s.watch.lastController } := by
        rw [hwatch]
        rfl
      unfold State.onWatch
      rw [hstart]
    · rfl
  · intro g haction hentry hrun
    have hall : ∀ k : Fin 6, (BitVec.allOnes 6).getLsbD k.val = true := by decide
    have hlock := State.lock_raised_unload (s := expired) (g := g) (r := s.watch.timeoutRaise) hentry (hall g)
      haction hrun
    constructor
    · exact congrArg GroupLock.state hlock
    · exact congrArg GroupLock.cause hlock

/-- Settles O37, by the kinds of the lines, and by what every change of the state keeps in bypass. -/
theorem markerLinesFollow : Obligations.MarkerLinesFollow := by
  unfold Obligations.MarkerLinesFollow
  refine ⟨fun s l => ?_, fun s l g => ⟨fun hk hg => ?_, fun hk => ?_⟩, ?_, ?_⟩
  · refine ⟨rfl, fun hpulse => ?_, fun k hk => State.lineActive_onMarker_of_ne hk _⟩
    have hentry : (s.onMarker l (fun m => { m with timer := none })).markers.entry l =
        { s.markers.entry l with timer := none } := by rw [State.onMarker_markers, Vector.entry_alter_same]
    rw [State.lineActive_of_pulse (by rw [hentry]; exact hpulse), hentry]
    rfl
  · rw [State.lineActive_held hk hg, GroupState.isHeld_iff]
  · rw [State.lineActive_notice hk, Option.isSome_iff_ne_none]
  · intro s t shut hs h
    exact State.markersShut_step hs h
  · intro s t shut hs h
    exact State.watchShut_step hs h

end Sys2Proof
end

section
/-! PROOF. The frames as bytes: what is written is read back, and which frames pass their checks (R2, R3, R8, R24, R171). -/

namespace Sys2Proof.Machine

open Sys2Proof

/-! ### Fields (R24) -/

theorem halfOf_toNat (a b : Byte) : (halfOf a b).toNat = a.toNat + 256 * b.toNat := by
  rw [halfOf, BitVec.toNat_append, ← Nat.shiftLeft_add_eq_or_of_lt a.isLt, Nat.shiftLeft_eq]
  omega

theorem halfAt_toNat (bytes : List Byte) (i : Nat) :
    (halfAt bytes i).toNat = (byteAt bytes i).toNat + 256 * (byteAt bytes (i + 1)).toNat := halfOf_toNat _ _

theorem byteAt_take {bytes : List Byte} {n i : Nat} (h : i < n) : byteAt (bytes.take n) i = byteAt bytes i := by
  simp only [byteAt, List.getD_eq_getElem?_getD, List.getElem?_take_of_lt h]

theorem halfOf_ofNat_toNat {n : Nat} (h : n < 65536) :
    (halfOf ((BitVec.ofNat 16 n).extractLsb' 0 8) ((BitVec.ofNat 16 n).extractLsb' 8 8)).toNat = n := by
  rw [halfOf_halfBytes, BitVec.toNat_ofNat]
  exact Nat.mod_eq_of_lt h

/-! ### The common checks (R2) -/

theorem commonChecks_iff (bytes : List Byte) : commonChecks bytes = true ↔
    7 ≤ bytes.length ∧ bytes.length ≤ 4096 ∧ declaredLength bytes + 4 = bytes.length ∧
      bytes = bytes.take (declaredLength bytes) ++ wordBytes (crc32 (bytes.take (declaredLength bytes))) := by
  have htail : bytes.drop (declaredLength bytes) = wordBytes (crc32 (bytes.take (declaredLength bytes))) ↔
      bytes = bytes.take (declaredLength bytes) ++ wordBytes (crc32 (bytes.take (declaredLength bytes))) := by
    conv => rhs; lhs; rw [← List.take_append_drop (declaredLength bytes) bytes]
    exact (List.append_right_inj _).symm
  rw [commonChecks, Bool.and_eq_true, Bool.and_eq_true, Bool.and_eq_true, decide_eq_true_eq, decide_eq_true_eq,
    beq_iff_eq, beq_iff_eq, htail, and_assoc, and_assoc]
  exact Iff.rfl

/-- R8: a frame closed with its CRC passes the common checks where its header declares the length of its body. -/
theorem commonChecks_sealFrame {body : List Byte} (hdeclared : declaredLength (sealFrame body) = body.length)
    (hmin : 3 ≤ body.length) (hmax : body.length ≤ 4092) : commonChecks (sealFrame body) = true := by
  rw [commonChecks_iff, hdeclared, (sealFrame_take_drop body).1, sealFrame_length]
  exact ⟨by omega, by omega, rfl, rfl⟩

/-! ### Sweeps (Figure 2-7) -/

/-- The bytes of a sweep before its CRC. -/
def sweepBody (sw : Sweep) : List Byte :=
  [kindSweep] ++ halfBytes (BitVec.ofNat 16 (9 + 8 * sw.slots.length)) ++ [sw.origin, sw.governor] ++ halfBytes sw.number
    ++ halfBytes (BitVec.ofNat 16 sw.slots.length) ++ (sw.slots.map slotBytes).flatten

theorem sweepBody_length (sw : Sweep) : (sweepBody sw).length = 9 + 8 * sw.slots.length := by
  simp only [sweepBody, List.length_append, slotsBytes_length, halfBytes_length, List.length_cons, List.length_nil]

theorem sweepBytes_drop (sw : Sweep) :
    (sweepBytes sw).drop 9 = (sw.slots.map slotBytes).flatten ++ wordBytes (crc32 (sweepBody sw)) := rfl

theorem readSlots_append (slots : List Slot) (rest : List Byte) :
    readSlots slots.length ((slots.map slotBytes).flatten ++ rest) = slots := by
  induction slots with
  | nil => rfl
  | cons sl slots ih =>
    rw [List.map_cons, List.flatten_cons, List.append_assoc, List.length_cons, readSlots_cons, ih]

theorem slotCount_sweepBytes {sw : Sweep} (h : sw.slots.length ≤ 384) : slotCount (sweepBytes sw) = sw.slots.length :=
  halfOf_ofNat_toNat (by omega)

theorem declaredLength_sweepBytes {sw : Sweep} (h : sw.slots.length ≤ 384) :
    declaredLength (sweepBytes sw) = 9 + 8 * sw.slots.length := halfOf_ofNat_toNat (by omega)

theorem readSweep_sweepBytes {sw : Sweep} (h : sw.slots.length ≤ 384) : readSweep (sweepBytes sw) = sw := by
  have hslots : readSlots (slotCount (sweepBytes sw)) ((sweepBytes sw).drop 9) = sw.slots := by
    rw [slotCount_sweepBytes h, sweepBytes_drop, readSlots_append]
  have hnumber : halfAt (sweepBytes sw) 5 = sw.number := halfOf_halfBytes sw.number
  rw [readSweep, hslots, hnumber]
  rfl

/-- R3: the checks of a sweep, on a frame whose declared length lies within it. -/
theorem sweepChecks_iff (bytes : List Byte) : sweepChecks bytes = true ↔
    slotCount bytes ≤ 384 ∧ (byteAt bytes 3 = 0 ∨ byteAt bytes 3 = 1) ∧
      declaredLength bytes = 9 + 8 * slotCount bytes := by
  have hcount (h : 9 ≤ declaredLength bytes) : slotCount (bytes.take (declaredLength bytes)) = slotCount bytes := by
    unfold slotCount halfAt
    rw [byteAt_take (by omega), byteAt_take (by omega)]
  rw [sweepChecks, Bool.and_eq_true, Bool.and_eq_true, Bool.or_eq_true, beq_iff_eq, beq_iff_eq, beq_iff_eq,
    decide_eq_true_eq, and_assoc]
  constructor
  · rintro ⟨hmax, horigin, hlength⟩
    rw [hcount (by omega)] at hmax hlength
    exact ⟨hmax, horigin, hlength⟩
  · rintro ⟨hmax, horigin, hlength⟩
    rw [hcount (by omega)]
    exact ⟨hmax, horigin, hlength⟩

/-- R8: a sweep of origin CONTROLLER or STAND-IN passes its checks. -/
theorem frameGood_sweepBytes {sw : Sweep} (h : sw.slots.length ≤ 384) (horigin : sw.origin = 0 ∨ sw.origin = 1) :
    frameGood (sweepBytes sw) = true := by
  have hlength := sweepBody_length sw
  have hdeclared := declaredLength_sweepBytes h
  have hcommon : commonChecks (sweepBytes sw) = true :=
    commonChecks_sealFrame (body := sweepBody sw) (hdeclared.trans hlength.symm) (by omega) (by omega)
  have hchecks : sweepChecks (sweepBytes sw) = true := by
    rw [sweepChecks_iff, slotCount_sweepBytes h]
    exact ⟨h, horigin, hdeclared⟩
  rw [frameGood, hcommon, if_pos (show frameKind (sweepBytes sw) = kindSweep from rfl), hchecks]
  rfl

/-! ### Service frames and replies (Figure 2-8) -/

/-- The bytes of a service frame or reply before its CRC. -/
def headedBody (kind node : Byte) (tag : Half) (count : Nat) (body : List Byte) : List Byte :=
  [kind] ++ halfBytes (BitVec.ofNat 16 (7 + body.length)) ++ [node] ++ halfBytes tag ++ [BitVec.ofNat 8 count] ++ body

theorem headedBody_length (kind node : Byte) (tag : Half) (count : Nat) (body : List Byte) :
    (headedBody kind node tag count body).length = 7 + body.length := by
  simp only [headedBody, List.length_append, halfBytes_length, List.length_cons, List.length_nil]

section
variable {kind node : Byte} {tag : Half} {count : Nat} {body : List Byte}

theorem declaredLength_headed (h : body.length ≤ 4085) :
    declaredLength (sealFrame (headedBody kind node tag count body)) = 7 + body.length :=
  halfOf_ofNat_toNat (by omega)

theorem frameBody_headed (h : body.length ≤ 4085) :
    frameBody (sealFrame (headedBody kind node tag count body)) = body := by
  rw [frameBody, declaredLength_headed h, ← headedBody_length kind node tag count body, (sealFrame_take_drop _).1]
  rfl

theorem itemCount_headed (h : count ≤ 255) :
    itemCount (sealFrame (headedBody kind node tag count body)) = count := toNat_ofNat_byte h

theorem commonChecks_headed (h : body.length ≤ 4085) :
    commonChecks (sealFrame (headedBody kind node tag count body)) = true := by
  have hlength := headedBody_length kind node tag count body
  exact commonChecks_sealFrame ((declaredLength_headed h).trans hlength.symm) (by omega) (by omega)

end

theorem itemBytes_length (it : Item) : (itemBytes it).length = 4 + 4 * it.args.length := by
  simp only [itemBytes, List.length_append, wordsBytes_length, halfBytes_length, List.length_cons, List.length_nil]

theorem resultBytes_length (r : ItemResult) : (resultBytes r).length = 5 + 4 * r.words.length := by
  simp only [resultBytes, List.length_append, wordsBytes_length, halfBytes_length, List.length_cons, List.length_nil]

theorem flatten_map_length_le {α : Type} {f : α → List Byte} {m : Nat} (l : List α)
    (h : ∀ x ∈ l, (f x).length ≤ m) : ((l.map f).flatten).length ≤ m * l.length := by
  induction l with
  | nil => exact Nat.zero_le _
  | cons x l ih =>
    have hx := h x List.mem_cons_self
    have hl := ih fun y hy => h y (List.mem_cons_of_mem x hy)
    rw [List.map_cons, List.flatten_cons, List.length_append, List.length_cons, Nat.mul_succ]
    omega

theorem itemsBytes_length_le {items : List Item} (hcount : items.length ≤ 64)
    (hwords : ∀ it ∈ items, it.args.length ≤ 12) : ((items.map itemBytes).flatten).length ≤ 4085 := by
  have h := flatten_map_length_le (f := itemBytes) (m := 52) items fun it hit => by
    have := hwords it hit
    rw [itemBytes_length]
    omega
  omega

theorem resultsBytes_length_le {results : List ItemResult} (hcount : results.length ≤ 64)
    (hwords : ∀ r ∈ results, r.words.length ≤ 12) : ((results.map resultBytes).flatten).length ≤ 4085 := by
  have h := flatten_map_length_le (f := resultBytes) (m := 53) results fun r hr => by
    have := hwords r hr
    rw [resultBytes_length]
    omega
  omega

/-- Where the bytes behind the seven header bytes lie within a frame, its covered bytes are the header with them. -/
theorem take_eq_header_append {bytes rest : List Byte} {n : Nat} (hlen : 7 ≤ bytes.length) (hn : n ≤ bytes.length) :
    bytes.take n = bytes.take 7 ++ rest ↔ 7 ≤ n ∧ (bytes.take n).drop 7 = rest := by
  have hheader (h : 7 ≤ n) : (bytes.take n).take 7 = bytes.take 7 := by
    rw [List.take_take, Nat.min_eq_left h]
  constructor
  · intro h
    have hn7 : 7 ≤ n := by
      have hlength := congrArg List.length h
      rw [List.length_append, List.length_take, List.length_take] at hlength
      omega
    have hsplit := List.take_append_drop 7 (bytes.take n)
    rw [hheader hn7, h] at hsplit
    rw [h]
    exact ⟨hn7, List.append_cancel_left hsplit⟩
  · rintro ⟨hn7, hrest⟩
    rw [← hrest, ← hheader hn7, List.take_append_drop]

/-- R3: the checks of a service frame, on a frame whose declared length lies within it. -/
theorem serviceChecks_iff {bytes : List Byte} (hlen : 7 ≤ bytes.length) (hn : declaredLength bytes ≤ bytes.length) :
    serviceChecks bytes = true ↔ 1 ≤ itemCount bytes ∧ itemCount bytes ≤ 64 ∧
      ∃ items : List Item, items.length = itemCount bytes ∧ (∀ it ∈ items, it.args.length ≤ 12) ∧
        bytes.take (declaredLength bytes) = bytes.take 7 ++ (items.map itemBytes).flatten := by
  simp only [serviceChecks, Bool.and_eq_true, decide_eq_true_eq, Option.isSome_iff_exists, walkItems_eq_some,
    take_eq_header_append hlen hn, frameBody]
  constructor
  · rintro ⟨⟨⟨h7, hone⟩, hmax⟩, items, hcount, hwords, hbody⟩
    exact ⟨hone, hmax, items, hcount, hwords, h7, hbody⟩
  · rintro ⟨hone, hmax, items, hcount, hwords, h7, hbody⟩
    exact ⟨⟨⟨h7, hone⟩, hmax⟩, items, hcount, hwords, hbody⟩

/-- R3: the checks of a reply, on a frame whose declared length lies within it. -/
theorem replyChecks_iff {bytes : List Byte} (hlen : 7 ≤ bytes.length) (hn : declaredLength bytes ≤ bytes.length) :
    replyChecks bytes = true ↔ itemCount bytes ≤ 64 ∧
      ∃ results : List (Byte × Byte × Half × List Word), results.length = itemCount bytes ∧
        (∀ r ∈ results, r.2.2.2.length ≤ 12) ∧
        bytes.take (declaredLength bytes) = bytes.take 7 ++ (results.map (fun r =>
          [r.1, r.2.1] ++ halfBytes r.2.2.1 ++ [BitVec.ofNat 8 r.2.2.2.length]
            ++ (r.2.2.2.map wordBytes).flatten)).flatten := by
  simp only [replyChecks, Bool.and_eq_true, decide_eq_true_eq, walkResults_iff, take_eq_header_append hlen hn, frameBody]
  constructor
  · rintro ⟨⟨h7, hmax⟩, results, hcount, hwords, hbody⟩
    exact ⟨hmax, results, hcount, hwords, h7, hbody⟩
  · rintro ⟨hmax, results, hcount, hwords, h7, hbody⟩
    exact ⟨⟨h7, hmax⟩, results, hcount, hwords, hbody⟩

/-- Figure 2-8: a service frame with these items. -/
def serviceBytes (destination : Byte) (tag : Half) (items : List Item) : List Byte :=
  sealFrame (headedBody kindService destination tag items.length (items.map itemBytes).flatten)

theorem serviceItems_serviceBytes {destination : Byte} {tag : Half} {items : List Item} (hcount : items.length ≤ 64)
    (hwords : ∀ it ∈ items, it.args.length ≤ 12) : serviceItems (serviceBytes destination tag items) = items := by
  have hlength := itemsBytes_length_le hcount hwords
  rw [serviceItems, serviceBytes, itemCount_headed (by omega), frameBody_headed hlength,
    (walkItems_eq_some _).2 ⟨rfl, hwords, rfl⟩]
  rfl

theorem frameGood_serviceBytes {destination : Byte} {tag : Half} {items : List Item} (hcount : items.length ≤ 64)
    (hwords : ∀ it ∈ items, it.args.length ≤ 12) (hsome : items ≠ []) :
    frameGood (serviceBytes destination tag items) = true := by
  have hlength := itemsBytes_length_le hcount hwords
  have hwalk : walkItems items.length (items.map itemBytes).flatten = some items :=
    (walkItems_eq_some _).2 ⟨rfl, hwords, rfl⟩
  have hchecks : serviceChecks (serviceBytes destination tag items) = true := by
    have hpos : 1 ≤ items.length := List.length_pos_iff.2 hsome
    rw [serviceChecks, serviceBytes, itemCount_headed (by omega), frameBody_headed hlength, hwalk,
      declaredLength_headed hlength, decide_eq_true (show 7 ≤ 7 + _ by omega), decide_eq_true hpos,
      decide_eq_true (show items.length ≤ Config.itemMax from hcount)]
    rfl
  have hkind : frameKind (serviceBytes destination tag items) = kindService := rfl
  have hcommon : commonChecks (serviceBytes destination tag items) = true := commonChecks_headed hlength
  rw [frameGood, hcommon, hkind, if_neg (by decide), if_pos rfl, hchecks]
  rfl

theorem replyBytes_eq (source : Byte) (tag : Half) (results : List ItemResult) : replyBytes source tag results =
    sealFrame (headedBody kindReply source tag results.length (results.map resultBytes).flatten) := rfl

/-- R171: a reply of at most 64 results of at most 12 words passes its checks. -/
theorem frameGood_replyBytes {source : Byte} {tag : Half} {results : List ItemResult} (hcount : results.length ≤ 64)
    (hwords : ∀ r ∈ results, r.words.length ≤ 12) : frameGood (replyBytes source tag results) = true := by
  have hlength := resultsBytes_length_le hcount hwords
  have hwalk : walkResults results.length (results.map resultBytes).flatten = true := by
    refine (walkResults_iff _).2 ⟨results.map fun r => (r.code, BitVec.ofNat 8 r.result.toCode, r.index, r.words),
      List.length_map _, ?_, ?_⟩
    · intro x hx
      obtain ⟨r, hr, rfl⟩ := List.mem_map.1 hx
      exact hwords r hr
    · rw [List.map_map]
      rfl
  have hchecks : replyChecks (replyBytes source tag results) = true := by
    rw [replyChecks, replyBytes_eq, itemCount_headed (by omega), frameBody_headed hlength, hwalk,
      declaredLength_headed hlength, decide_eq_true (show 7 ≤ 7 + _ by omega),
      decide_eq_true (show results.length ≤ Config.itemMax from hcount)]
    rfl
  have hkind : frameKind (replyBytes source tag results) = kindReply := rfl
  have hcommon : commonChecks (replyBytes source tag results) = true := commonChecks_headed hlength
  rw [frameGood, hcommon, hkind, if_neg (by decide), if_neg (by decide), if_pos rfl, hchecks]
  rfl

/-! ### All the checks (R2, R3) -/

/-- R3: the checks of a frame's kind each bear on frames of that kind alone. -/
theorem frameGood_iff (bytes : List Byte) : frameGood bytes = true ↔ commonChecks bytes = true ∧
    (frameKind bytes = kindSweep → sweepChecks bytes = true) ∧
    (frameKind bytes = kindService → serviceChecks bytes = true) ∧
    (frameKind bytes = kindReply → replyChecks bytes = true) := by
  have h12 : kindService ≠ kindSweep := by decide
  have h13 : kindReply ≠ kindSweep := by decide
  have h23 : kindReply ≠ kindService := by decide
  rw [frameGood, Bool.and_eq_true]
  refine and_congr_right fun _ => ?_
  by_cases h1 : frameKind bytes = kindSweep
  · simp [h1, h12.symm, h13.symm]
  · by_cases h2 : frameKind bytes = kindService
    · simp [h2, h12, h23.symm]
    · by_cases h3 : frameKind bytes = kindReply
      · simp [h3, h13, h23]
      · simp [h1, h2, h3]

/-! ### The CRC (R2) -/

/-- R2: one bit fed to the register, with the coefficient of the highest power in the top bit. -/
def crcFed (register : Word) (bit : Bool) : Word :=
  if register.msb = bit then register <<< 1 else (register <<< 1) ^^^ 0x04C11DB7#32

theorem crcShift_reverse_fed (r : Word) (b : Bool) :
    crcShift (r.reverse ^^^ (BitVec.ofBool b).setWidth 32) = (crcFed r b).reverse := by
  rw [crcShift_reverse, crcFed]
  by_cases h : r.msb = b
  · rw [if_pos h, if_neg (by rw [h]; simp)]
  · rw [if_neg h, if_pos (by simpa using h)]

theorem foldl_crcShift_reverse (bits : List Bool) (r : Word) :
    bits.foldl (fun r b => crcShift (r ^^^ (BitVec.ofBool b).setWidth 32)) r.reverse = (bits.foldl crcFed r).reverse := by
  induction bits generalizing r with
  | nil => rfl
  | cons b bits ih => rw [List.foldl_cons, List.foldl_cons, crcShift_reverse_fed, ih]

/-- The register that the part keeps is the mirror image of R2's after every string of bytes. -/
theorem foldl_crcByte_reverse (bytes : List Byte) (r : Word) :
    bytes.foldl crcByte r.reverse =
      ((bytes.flatMap fun b => (List.range 8).map fun i => b.getLsbD i).foldl crcFed r).reverse := by
  induction bytes generalizing r with
  | nil => rfl
  | cons b bytes ih =>
    have hbyte : crcByte r.reverse b = (((List.range 8).map fun i => b.getLsbD i).foldl crcFed r).reverse := by
      rw [crcByte_bits, ← foldl_crcShift_reverse, List.foldl_map]
    rw [List.foldl_cons, hbyte, ih, List.flatMap_cons, List.foldl_append]

theorem reverse_not (w : Word) : (~~~w).reverse = ~~~w.reverse := by
  apply BitVec.eq_of_getLsbD_eq
  intro i hi
  rw [BitVec.getLsbD_reverse, BitVec.getMsbD_not, BitVec.getLsbD_not, BitVec.getLsbD_reverse]

theorem crc32_eq (bytes : List Byte) : crc32 bytes =
    (~~~((bytes.flatMap fun b => (List.range 8).map fun i => b.getLsbD i).foldl crcFed 0xFFFFFFFF#32)).reverse := by
  have hones : (0xFFFFFFFF#32).reverse = 0xFFFFFFFF#32 := by decide +kernel
  rw [reverse_not, ← foldl_crcByte_reverse, hones, crc32]

end Sys2Proof.Machine

namespace Sys2Proof

open Sys2Proof.Machine

/-- Settles O15, by reading back what is written, field by field. -/
theorem sweepBytesReadBack : Obligations.SweepBytesReadBack := by
  unfold Obligations.SweepBytesReadBack
  refine ⟨fun sw h => readSweep_sweepBytes h, ?_⟩
  intro two four byte closed resultCode
  refine ⟨fun sw => rfl, ?_, ?_⟩
  · intro destination tag items hcount hwords body frame
    have hframe : frame = serviceBytes destination tag items := rfl
    rw [hframe]
    exact ⟨rfl, rfl, halfOf_halfBytes tag, serviceItems_serviceBytes hcount hwords,
      frameGood_serviceBytes hcount hwords⟩
  · intro source tag results body
    have hcode (r : ResultCode) : BitVec.ofNat 8 r.toCode = resultCode r := by cases r <;> rfl
    have hresult : resultBytes = fun r : ItemResult =>
        [r.code, resultCode r.result] ++ two r.index ++ [byte r.words.length] ++ (r.words.map four).flatten := by
      funext r
      rw [resultBytes, hcode]
      rfl
    rw [replyBytes_eq, hresult]
    rfl

/-- Settles O16, by the clauses of R2 and R3 and the mirror image of the register. -/
theorem builtFramesPassChecks : Obligations.BuiltFramesPassChecks := by
  unfold Obligations.BuiltFramesPassChecks
  refine ⟨fun sw h horigin => frameGood_sweepBytes h horigin,
    fun source tag results hcount hwords => frameGood_replyBytes hcount hwords, ?_, fun bytes => crc32_eq bytes⟩
  intro bytes two four byte declared covered slots count
  have hdeclared : declaredLength bytes = declared := halfAt_toNat bytes 1
  have hslots : slotCount bytes = slots := halfAt_toNat bytes 7
  rw [frameGood_iff, commonChecks_iff, sweepChecks_iff, hdeclared, hslots]
  refine and_congr_right fun hcommon => and_congr Iff.rfl (and_congr ?_ ?_)
  · refine imp_congr Iff.rfl ((serviceChecks_iff hcommon.1 (by omega)).trans ?_)
    rw [hdeclared]
    exact Iff.rfl
  · refine imp_congr Iff.rfl ((replyChecks_iff hcommon.1 (by omega)).trans ?_)
    rw [hdeclared]
    exact Iff.rfl

end Sys2Proof
end

section
/-! PROOF. Stand-in sweeps (R159). -/

namespace Sys2Proof.Machine

open Sys2Proof

/-- R159: the roles for which a stand-in sweep carries a slot. -/
def standInRoles : List Role := allActuators.map .setpoint ++ [.statusGroups, .statusFlags, .notice, .noticeSeq]

theorem role_mem_standInRoles {b : Binding} (h : (standInSlot b).isSome = true) : b.role ∈ standInRoles := by
  obtain ⟨slot, role⟩ := b
  cases role with
  | setpoint a =>
    refine List.mem_append_left _ (List.mem_map_of_mem ?_)
    exact List.mem_ofFn.2 ⟨a, rfl⟩
  | feedback a | strain a | crack a => cases h
  | statusGroups | statusFlags | notice | noticeSeq => exact List.mem_append_right _ (by simp)

/-- A map without a role twice gives a stand-in sweep no more slots than there are such roles. -/
theorem standInSlots_length_le {map : List Binding} (hmap : mapWf map) : (map.filterMap standInSlot).length ≤ 20 := by
  have hlength : (map.filterMap standInSlot).length = (map.filter fun b => (standInSlot b).isSome).length := by
    rw [← List.countP_eq_length_filter]
    exact List.length_filterMap_eq_countP
  have hnodup : ((map.filter fun b => (standInSlot b).isSome).map Binding.role).Nodup :=
    hmap.2.sublist (List.filter_sublist.map _)
  have hsub : (map.filter fun b => (standInSlot b).isSome).map Binding.role ⊆ standInRoles := by
    intro r hr
    obtain ⟨b, hb, rfl⟩ := List.mem_map.1 hr
    exact role_mem_standInRoles (List.mem_filter.1 hb).2
  have hle := (List.subperm_of_subset hnodup hsub).length_le
  rw [List.length_map] at hle
  have hroles : standInRoles.length = 20 := by decide
  omega

/-- R159: a stand-in sweep passes the checks of the lane that it enters. -/
theorem State.frameGood_standInSweep {s : State} (hmap : mapWf s.slotMap) (number : Half) :
    frameGood (sweepBytes (s.standInSweep number)) = true := by
  have hlength : (s.standInSweep number).slots.length ≤ 20 := standInSlots_length_le hmap
  exact frameGood_sweepBytes (by omega) (.inr rfl)

/-- R157: a stand-in sweep is not reported to the sweep watch. -/
theorem State.reportArrival_standIn (s t : State) (number : Half) :
    s.reportArrival .outbound (sweepBytes (t.standInSweep number)) = s := by
  rw [State.reportArrival_eq]
  exact if_neg fun h => absurd h.2.2 (by decide : originStandIn ≠ 0)

end Sys2Proof.Machine

namespace Sys2Proof
open Sys2Proof.Machine

/-- Settles O36: the stand-in sweep passes its checks and enters the lane as an arrival. -/
theorem standInOriginated : Obligations.StandInOriginated := by
  unfold Obligations.StandInOriginated
  intro s horiginating hbypass hmap bytes spent
  have hbytes : bytes = sweepBytes (s.standInSweep (s.watch.lastOriginated + 1)) := by
    have hslot : (fun b : Binding => standInSlot b) = fun b =>
        match b.role with
        | .setpoint _ => some { number := b.slot, kind := 1, quality := 0, value := 0 }
        | .statusGroups | .statusFlags | .notice | .noticeSeq =>
          some { number := b.slot, kind := 7, quality := 0, value := 0 }
        | .feedback _ | .strain _ | .crack _ => none := by
      funext b
      unfold standInSlot
      cases b.role <;> rfl
    unfold State.standInSweep
    rw [show standInSlot = fun b => standInSlot b from rfl, hslot]
    rfl
  have hgood : frameGood bytes = true := hbytes ▸ State.frameGood_standInSweep hmap _
  have hreport : spent.reportArrival .outbound bytes = spent := hbytes ▸ State.reportArrival_standIn _ _ _
  have hstand : exec .standInExpiry s = .next (spent.arriveChecked .outbound bytes) := by
    refine congrArg Host.Outcome.next ((if_pos horiginating).trans ?_)
    rw [hbytes]
    exact if_neg (by rw [State.lane, State.onWatch_outLane, hbypass]; decide)
  rw [hstand]
  refine ⟨fun hroom => congrArg Host.Outcome.next ?_, fun hfull => congrArg Host.Outcome.next ?_⟩
  · rw [State.arriveChecked_room (l := .outbound) hgood (by exact hroom), hreport]
    rfl
  · rw [State.arriveChecked_full (l := .outbound) hgood (by exact Nat.not_lt.2 hfull), hreport]
    rfl

end Sys2Proof
end

section
/-! PROOF. Outputs: the envelope, the slew limit, hold values and the group-sum check (R35 to R46). -/

namespace Sys2Proof.Machine

open Sys2Proof

/-! ### Stages 3 to 5 of an actuator that keeps an output -/

theorem State.previous_of_kept {s : State} {a : Actuator} {prev : Int} (h : (s.output a).kept = some prev) :
    s.previous a = prev := by rw [State.previous, h, Option.getD_some]

section
variable {x : Shaping} {g : Group} {a : Actuator} {prev : Int}

theorem Shaping.candidate_unload_near (h : (x.state.output a).kept = some prev)
    (hnear : ((x.state.actuator a).floor - prev).natAbs ≤ (x.state.lock g).record.unloadRate) :
    x.candidate g .unload a = ((x.state.actuator a).floor, .good) := by
  have hslew := (slewTo_spec (x.state.lock g).record.unloadRate prev (x.state.actuator a).floor).2.2.2.1 hnear
  show unloadOutput _ (x.state.previous a) _ = _
  rw [State.previous_of_kept h, unloadOutput, hslew]
  exact congrArg (Prod.mk _) (if_neg fun hne => hne rfl)

theorem Shaping.candidate_unload_far (h : (x.state.output a).kept = some prev)
    (hfar : (x.state.lock g).record.unloadRate < ((x.state.actuator a).floor - prev).natAbs) :
    x.candidate g .unload a =
      (if prev < (x.state.actuator a).floor then prev + (x.state.lock g).record.unloadRate
        else prev - (x.state.lock g).record.unloadRate, .limited) := by
  obtain ⟨-, hlow, hhigh, -, hstep⟩ :=
    slewTo_spec (x.state.lock g).record.unloadRate prev (x.state.actuator a).floor
  have hmoved := hstep hfar
  show unloadOutput _ (x.state.previous a) _ = _
  rw [State.previous_of_kept h, unloadOutput, Prod.mk.injEq]
  refine ⟨?_, if_pos ?_⟩
  · split_ifs <;> omega
  · intro heq
    rw [heq] at hmoved
    omega

theorem Shaping.candidate_hold {e : PageEntry} {held : Int} (h : (x.state.output a).kept = some prev)
    (hentry : (x.state.activePage g).entries.entry a = some e) (hheld : (x.state.output a).hold = some held) :
    x.candidate g .hold a = throughEnvelope e prev held false := by
  simp only [Shaping.candidate, hentry, hheld, State.previous_of_kept h, Option.getD_some]

theorem Shaping.candidate_run {e : PageEntry} (h : (x.state.output a).kept = some prev)
    (hentry : (x.state.activePage g).entries.entry a = some e) :
    x.candidate g .run a = throughEnvelope e prev (x.runTarget g a e).1 (x.runTarget g a e).2 := by
  simp only [Shaping.candidate, hentry, State.previous_of_kept h]

theorem Shaping.runTarget_cyclic {e : PageEntry} (h : e.mode = .cyclic) : x.runTarget g a e =
    (waveform (x.state.shapes.entry e.shape) e (x.state.shape ((x.state.lead g).getD g)).theta, false) := by
  simp only [Shaping.runTarget, h]
  rfl

theorem Shaping.runTarget_direct {e : PageEntry} (h : e.mode = .direct) : x.runTarget g a e = x.directTarget a := by
  simp only [Shaping.runTarget, h]

theorem Shaping.directTarget_absent (h : x.setpoint? a = none) : x.directTarget a = (x.state.previous a, true) := by
  simp only [Shaping.directTarget, h]

theorem Shaping.directTarget_present {i : Nat} {sl : Slot} (h : x.setpoint? a = some (i, sl)) : x.directTarget a =
    if qualityOf sl.quality = .good then (sl.value.toInt, false) else (x.state.previous a, true) := by
  simp only [Shaping.directTarget, h]

end

/-! ### The actuators of a group -/

theorem State.members_eq (s : State) (g : Group) :
    s.members g = allActuators.filter (fun a => (s.actuator a).group = some g) :=
  List.filter_congr fun a _ => Bool.eq_iff_iff.2 (by rw [beq_iff_eq, decide_eq_true_eq])

theorem maskOf_singleton (g : Group) : maskOf [g] = BitVec.twoPow 6 g.val := BitVec.zero_or

/-! ### Hold values (R39) -/

/-- R39: the update of an actuator's output that sets the hold values of a group. -/
def State.holdUpdate (s : State) (g : Group) (a : Actuator) (o : ActuatorOutput) : ActuatorOutput :=
  if (s.actuator a).group = some g ∧ (s.shape g).lastShaped ≠ some .hold then { o with hold := o.kept } else o

theorem Vector.alterAll_id {n : Nat} {α : Type} (t : Vector α n) : t.alterAll (fun _ x => x) = t :=
  Vector.ext_entry fun i => Vector.entry_alterAll t _ i

theorem State.setHolds_eq (s : State) (g : Group) : s.setHolds g = s.onOutputs (s.holdUpdate g) := by
  by_cases h : (s.shape g).lastShaped = some .hold
  · have hid : s.holdUpdate g = fun _ o => o := by
      funext a o
      exact if_neg fun hc => hc.2 h
    rw [State.setHolds, if_pos h, hid, State.onOutputs, Vector.alterAll_id]
  · rw [State.setHolds, if_neg h]
    congr 1
    funext a o
    rw [State.holdUpdate]
    by_cases hg : (s.actuator a).group = some g
    · exact (if_pos (beq_iff_eq.2 hg)).trans (if_pos ⟨hg, h⟩).symm
    · exact (if_neg fun hc => hg (beq_iff_eq.1 hc)).trans (if_neg fun hc => hg hc.1).symm

theorem State.previous_setHolds (s : State) (g : Group) (a : Actuator) : (s.setHolds g).previous a = s.previous a := by
  rw [State.setHolds_eq, State.previous, State.output_onOutputs, State.holdUpdate]
  split_ifs <;> rfl

/-! ### Stages 3 to 6 (R45, R46) -/

/-- The shaping in which a group's sum is checked: in HOLD with the hold values set. -/
def Shaping.withHolds (x : Shaping) (g : Group) : Shaping :=
  if x.working.entry g = .hold then { x with state := x.state.onOutputs (x.state.holdUpdate g) } else x

/-- The working states in which a group's sum is checked. -/
def GroupState.isSummed (st : GroupState) : Prop := st = .engaging ∨ st = .run ∨ st = .hold

theorem Shaping.stage3to6_summed {x : Shaping} {g : Group} (h : (x.working.entry g).isSummed) :
    x.stage3to6 g = (x.withHolds g).sumCheck g ((x.withHolds g).candidates g (x.working.entry g)) := by
  unfold Shaping.stage3to6 Shaping.withHolds
  rcases h with h | h | h <;> rw [h]
  · rfl
  · rfl
  · dsimp only
    rw [State.setHolds_eq]
    rfl

section
variable (x : Shaping) (g : Group)

theorem Shaping.withHolds_cases :
    x.withHolds g = { x with state := x.state.onOutputs (x.state.holdUpdate g) } ∨ x.withHolds g = x := by
  by_cases h : x.working.entry g = .hold
  · exact .inl (if_pos h)
  · exact .inr (if_neg h)

theorem Shaping.previous_withHolds (a : Actuator) : (x.withHolds g).state.previous a = x.state.previous a := by
  rcases x.withHolds_cases g with h | h
  · rw [h, ← State.setHolds_eq]
    exact State.previous_setHolds x.state g a
  · rw [h]

theorem Shaping.members_withHolds : (x.withHolds g).state.members g = x.state.members g := by
  rcases x.withHolds_cases g with h | h
  · rw [h]
    rfl
  · rw [h]

theorem Shaping.activePage_withHolds : (x.withHolds g).state.activePage g = x.state.activePage g := by
  rcases x.withHolds_cases g with h | h
  · rw [h]
    rfl
  · rw [h]

theorem Shaping.previousSum_withHolds : (x.withHolds g).previousSum g = x.previousSum g := by
  rw [Shaping.previousSum, Shaping.previousSum, Shaping.members_withHolds]
  exact congrArg List.sum (List.map_congr_left fun a _ => x.previous_withHolds g a)

theorem Shaping.repeated_withHolds : (x.withHolds g).repeated g = x.repeated g := by
  rw [Shaping.repeated, Shaping.repeated, Shaping.members_withHolds]
  exact List.map_congr_left fun a _ => by rw [x.previous_withHolds g a]

/-- R46: a trip in the shaping in which the sum is checked, said with the shaping as it came to stage 3. -/
theorem Shaping.trip_withHolds : (x.withHolds g).trip g =
    { x.withHolds g with
      state := (if (x.state.shape g).sumArmed = true then
          (x.withHolds g).state.raised
            { source := .groupSum g, level := (x.state.lock g).record.sumLevel, action := .unload
              mask := BitVec.twoPow 6 g.val, sweep := x.number, capture := true, handed := .sum }
        else (x.withHolds g).state).onShape g (fun z => { z with sumArmed := false })
      working := x.working.alter g (fun _ => .unload) } := by
  rw [← maskOf_singleton]
  rcases x.withHolds_cases g with h | h
  · rw [h]
    rfl
  · rw [h]
    rfl

theorem Shaping.sum_repeated : sumOf (x.repeated g) = x.previousSum g := by
  rw [sumOf, Shaping.repeated, List.map_map]
  rfl

/-- R45, R46: after stage 6 the sum lies within the limit, or the group trips. -/
theorem Shaping.sumCheck_within (cands : List Output) :
    (sumOf (x.sumCheck g cands).2).natAbs ≤ (x.state.activePage g).sumLimit ∨
      (x.sumCheck g cands).1 = x.trip g ∧ (x.previousSum g).natAbs > (x.state.activePage g).sumLimit := by
  unfold Shaping.sumCheck
  dsimp only
  split_ifs with hcands hprev
  · exact .inl hcands
  · rw [Shaping.sum_repeated]
    exact .inl hprev
  · exact .inr ⟨rfl, Nat.lt_of_not_le hprev⟩

theorem Shaping.members_trip : (x.trip g).state.members g = x.state.members g := by
  have hraised : StageKeeps x.state
      (if (x.state.shape g).sumArmed then x.state.raised (x.state.sumRaise g x.number) else x.state) := by
    split_ifs
    · exact StageKeeps.raised _ _
    · exact StageKeeps.refl _
  have hkeeps : StageKeeps x.state (x.trip g).state := hraised.trans (StageKeeps.onShape _ _ _)
  unfold State.members State.actuator
  rw [hkeeps.acts]

theorem Shaping.trip_working : (x.trip g).working.entry g = .unload := Vector.entry_alter_same _ _ _

theorem Shaping.trip_sumArmed : ((x.trip g).state.shape g).sumArmed = false := by
  rw [Shaping.trip, State.shape_onShape_same]

end

end Sys2Proof.Machine

namespace Sys2Proof
open Sys2Proof.Machine

/-- Settles O29, by the slew limit within the envelope and the output of each working state. -/
theorem envelopeAndSlew : Obligations.EnvelopeAndSlew := by
  unfold Obligations.EnvelopeAndSlew
  constructor
  · intro e prev target held hbounds t o q
    have ht : clampInt e.fmin e.fmax target = t := clampInt_eq hbounds
    have ho : o = slewTo e.slew prev t := by
      rw [← ht]
      rfl
    obtain ⟨hlimit, hlow, hhigh, hreach, hstep⟩ := ho ▸ slewTo_spec e.slew prev t
    have hq : q = if t ≠ target ∨ o ≠ t then .limited else if held = true then .held else .good := by
      rw [ho, ← ht]
      rfl
    exact ⟨hlimit, hlow, hhigh, hreach, hstep, fun hprev => by omega, hq⟩
  · intro x g a prev hkept floor rate
    have hprev := State.previous_of_kept hkept
    refine ⟨congrArg (·, Quality.good) hprev, rfl, Shaping.candidate_unload_near hkept,
      Shaping.candidate_unload_far hkept, fun e hentry => ⟨fun held hheld => ?_, fun hmode => ?_, fun hmode hslot => ?_,
      fun i sl hmode hslot => ?_⟩⟩
    · exact Shaping.candidate_hold hkept hentry hheld
    · rw [Shaping.candidate_run hkept hentry, Shaping.runTarget_cyclic hmode]
    · rw [Shaping.candidate_run hkept hentry, Shaping.runTarget_direct hmode, Shaping.directTarget_absent hslot, hprev]
    · rw [Shaping.candidate_run hkept hentry, Shaping.runTarget_direct hmode, Shaping.directTarget_present hslot, hprev]
      split_ifs <;> rfl

/-- Settles O30, by the check of the sum in the shaping with the hold values set. -/
theorem sumKeptWithinLimit : Obligations.SumKeptWithinLimit := by
  unfold Obligations.SumKeptWithinLimit
  constructor
  · intro x g hst
    rw [Shaping.stage3to6_summed hst]
    have hcheck := (x.withHolds g).sumCheck_within g ((x.withHolds g).candidates g (x.working.entry g))
    rw [Shaping.activePage_withHolds, Shaping.previousSum_withHolds] at hcheck
    refine hcheck.imp_right fun ⟨htrip, hsum⟩ => ?_
    rw [htrip]
    exact ⟨Shaping.trip_working _ g, Shaping.trip_sumArmed _ g, hsum⟩
  · intro x g st members outputs armed limit held y
    have hmembers : x.state.members g = members := State.members_eq x.state g
    have hcands (z : Shaping) (hz : z.state.members g = x.state.members g) (st : GroupState) :
        z.candidates g st = outputs z st := by rw [Shaping.candidates, hz, hmembers]
    refine ⟨fun hoff => ?_, fun hlow => ?_, fun hsummed => ?_⟩
    · simp only [Shaping.stage3to6, show x.working.entry g = .off from hoff]
      rfl
    · rw [← hcands x rfl st]
      unfold Shaping.stage3to6
      rcases hlow with h | h <;> rw [show x.working.entry g = _ from h, h] <;> rfl
    · have hy : x.withHolds g = y := rfl
      have hmem : y.state.members g = x.state.members g := Shaping.members_withHolds x g
      rw [Shaping.stage3to6_summed hsummed, hy, hcands y hmem]
      unfold Shaping.sumCheck
      dsimp only
      rw [hcands (y.trip g) ((Shaping.members_trip y g).trans hmem), ← hy, Shaping.activePage_withHolds,
        Shaping.previousSum_withHolds, Shaping.repeated_withHolds, Shaping.trip_withHolds, Shaping.repeated, hmembers]
      rfl

end Sys2Proof
end

section
/-! PROOF. Raises taken whole, the interlock's reports, and stage 2 of the shaper (R32, R59, R61, R82, R84, R85, R133, R153). -/

namespace Sys2Proof.Machine

open Sys2Proof

/-! ### Raises (R82, R87, R133) -/

/-- R82: the states that an action moves. -/
def Action.moves (act : Action) (st : GroupState) : Prop :=
  (act = .hold ∧ (st = .engaging ∨ st = .run)) ∨ (act = .unload ∧ (st = .engaging ∨ st = .run ∨ st = .hold))

theorem GroupState.under_of_moves {act : Action} {st : GroupState} (h : act.moves st) :
    st.under act = some (if act = .hold then .hold else .unload) := by
  rcases h with ⟨rfl, h⟩ | ⟨rfl, h⟩
  · rcases h with rfl | rfl <;> rfl
  · rcases h with rfl | rfl | rfl <;> rfl

theorem GroupState.under_of_not_moves {act : Action} {st : GroupState} (h : ¬act.moves st) : st.under act = none := by
  cases hu : st.under act with
  | none => rfl
  | some b =>
    refine absurd ?_ h
    rcases GroupState.under_some hu with ⟨hact, hst, -⟩ | ⟨hact, hst, -⟩
    · exact .inl ⟨hact, hst⟩
    · exact .inr ⟨hact, hst⟩

section
variable {s : State} {r : Raise}

theorem State.lock_raised_new (h : s.alarm.entry? r.source = none) (g : Group) :
    (s.raised r).lock g = r.onGroup g (s.lock g) := by
  rw [State.lock_raised, h, Option.isSome_none, if_neg (by decide)]

theorem State.lock_raised_moved (h : s.alarm.entry? r.source = none) {g : Group} (hmask : r.mask.getLsbD g.val = true)
    (hmoves : r.action.moves (s.groupState g)) : (s.raised r).lock g = { s.lock g with
      state := if r.action = .hold then .hold else .unload, engageCount := 0, reportDue := false
      cause := some r.cause } := by
  have hunder : (s.lock g).state.under r.action = _ := GroupState.under_of_moves hmoves
  rw [State.lock_raised_new h, Raise.onGroup, if_pos hmask, hunder]

theorem State.lock_raised_unmoved (h : s.alarm.entry? r.source = none) {g : Group}
    (hunmoved : ¬(r.mask.getLsbD g.val = true ∧ r.action.moves (s.groupState g))) :
    (s.raised r).lock g = s.lock g := by
  rw [State.lock_raised_new h, Raise.onGroup]
  split_ifs with hmask
  · have hunder : (s.lock g).state.under r.action = none :=
      GroupState.under_of_not_moves fun hmoves => hunmoved ⟨hmask, hmoves⟩
    rw [hunder]
  · rfl

/-- R133: the state after the entry and the action of a raise, before its capture. -/
def State.acted (s : State) (r : Raise) : State :=
  { s with alarm := { s.alarm with
    entries := insertEntry (s.newEntry r) s.alarm.entries
    counter := s.alarm.counter + 1 } }.withLocks (s.interlock.groups.alterAll r.onGroup)

theorem State.raised_acted (h : s.alarm.entry? r.source = none) : s.raised r =
    if r.asksCapture then (s.acted r).capture (.raised r.source s.alarm.counter) r.sweep else s.acted r :=
  State.raised_of_none h

theorem State.raised_asking (h : s.alarm.entry? r.source = none) (hasks : r.asksCapture = true) :
    s.raised r = (s.acted r).capture (.raised r.source s.alarm.counter) r.sweep := by
  rw [State.raised_acted h, if_pos hasks]

theorem State.raised_not_asking (h : s.alarm.entry? r.source = none) (hasks : r.asksCapture = false) :
    s.raised r = s.acted r := by
  rw [State.raised_acted h, hasks]
  rfl

end

/-- R133, step 3: the sources that always ask for a capture are those of numbers 0 to 28. -/
theorem Raise.asksCapture_iff (r : Raise) : r.asksCapture = true ↔ r.source.number ≤ 28 ∨ r.capture = true := by
  unfold Raise.asksCapture Source.number numberOf
  cases r.source with
  | timeout => exact iff_of_true rfl (.inl (Nat.zero_le 28))
  | groupSum g | blockStop g => exact iff_of_true rfl (.inl (by have := g.isLt; dsimp only; omega))
  | drive a => exact iff_of_true rfl (.inl (by have := a.isLt; dsimp only; omega))
  | coincidence n | crack n | strain n => exact (or_iff_right (by dsimp only; omega)).symm

/-! ### The interlock's reports (R84, R85) -/

theorem State.engageEnd_of_due {s : State} {g : Group} (hst : s.groupState g = .engaging)
    (hdue : (s.lock g).reportDue = true) : s.engageEnd g =
      s.onLock g (fun l => { l with state := .run, engageCount := 0, reportDue := false }) := by
  have hcond : ((s.lock g).state = .engaging && (s.lock g).reportDue) = true := by
    rw [show (s.lock g).state = .engaging from hst, hdue]
    rfl
  rw [State.engageEnd, if_pos hcond, State.moveGroup_of_ne_off _ _ (by decide)]

theorem State.engageEnd_of_ne {s : State} {g : Group} (hst : s.groupState g ≠ .engaging) : s.engageEnd g = s := by
  refine if_neg fun hcond => hst ?_
  rw [Bool.and_eq_true, decide_eq_true_eq] at hcond
  exact hcond.1

/-- R48: every actuator of the group stands at its floor. -/
theorem State.atFloors_iff {s : State} {g : Group} : s.atFloors g = true ↔
    ∀ a : Actuator, (s.actuator a).group = some g → (s.output a).kept = some (s.actuator a).floor := by
  simp only [State.atFloors, List.all_eq_true, State.mem_members, beq_iff_eq]

theorem Shaping.stage8_engaging {x : Shaping} {g : Group} (h : x.working.entry g = .engaging) :
    x.stage8 g = { x with state := x.state.engageReport g } := by simp only [Shaping.stage8, h]

theorem Shaping.stage8_unload {x : Shaping} {g : Group} (h : x.working.entry g = .unload) :
    x.stage8 g = if x.state.atFloors g then { x with state := x.state.unloadCompletion g } else x := by
  simp only [Shaping.stage8, h]

theorem Shaping.stage8_of_ne {x : Shaping} {g : Group} (he : x.working.entry g ≠ .engaging)
    (hu : x.working.entry g ≠ .unload) : x.stage8 g = x := by
  unfold Shaping.stage8
  cases h : x.working.entry g with
  | engaging => exact absurd h he
  | unload => exact absurd h hu
  | off | run | hold | rest => rfl

/-! ### Stage 2 (R32, R59, R61) -/

theorem MarkerLine.names_iff {m : MarkerLine} {kind : MarkerKind} {g : Group} :
    m.names kind g = true ↔ m.kind = kind ∧ m.group = g.val + 1 := by
  rw [MarkerLine.names, Bool.and_eq_true, beq_iff_eq, beq_iff_eq]
  exact Iff.rfl

theorem State.tellMarkers_entry (s : State) (named : MarkerLine → Bool) (l : Line) :
    (s.tellMarkers named).markers.entry l = if named (s.markers.entry l) = true then
      { s.markers.entry l with timer := some (s.markers.entry l).width } else s.markers.entry l :=
  Vector.entry_alterAll _ _ _

theorem Shaping.countCycle_entry (x : Shaping) (g h : Group) :
    (x.countCycle g).state.cycles.entry h = if h = g ∨ (x.state.lead h = some g ∧ x.cycling.entry h = true) then
      { x.state.cycles.entry h with
        total := countUp Config.totalMax (x.state.cycles.entry h).total
        block := countUp Config.blockMax (x.state.cycles.entry h).block }
    else x.state.cycles.entry h := by
  have hcond : (decide (h = g) || (x.state.lead h == some g && x.cycling.entry h)) = true ↔
      h = g ∨ (x.state.lead h = some g ∧ x.cycling.entry h = true) := by
    rw [Bool.or_eq_true, Bool.and_eq_true, decide_eq_true_eq, beq_iff_eq]
  rw [Shaping.countCycle, State.onAllCycles_cycles, Vector.entry_alterAll]
  exact if_congr hcond rfl rfl

theorem State.swap_of_none {s : State} {g : Group} (h : (s.pages.entry g).pendingPage = none) : s.swap g = s := by
  simp only [State.swap, h]

theorem State.swap_of_some {s : State} {g : Group} {p : Fin 4} (h : (s.pages.entry g).pendingPage = some p) :
    s.swap g = s.onPages g (fun y =>
      { y with pendingPage := none, active := if s.complete g p then p else y.active }) := by
  simp only [State.swap, h]

theorem State.swap_entry_of_ne (s : State) {g h : Group} (hne : h ≠ g) :
    (s.swap g).pages.entry h = s.pages.entry h := by
  cases hp : (s.pages.entry g).pendingPage with
  | none => rw [State.swap_of_none hp]
  | some p => rw [State.swap_of_some hp, State.onPages_pages, Vector.entry_alter_of_ne _ _ hne]

theorem State.swap_entry (s : State) (g : Group) : (s.swap g).pages.entry g = { s.pages.entry g with
    pendingPage := none
    active := match (s.pages.entry g).pendingPage with
      | none => (s.pages.entry g).active
      | some p => if s.complete g p = true then p else (s.pages.entry g).active } := by
  cases hp : (s.pages.entry g).pendingPage with
  | none =>
    rw [State.swap_of_none hp]
    dsimp only
    rw [← hp]
  | some p => rw [State.swap_of_some hp, State.onPages_pages, Vector.entry_alter_same]

theorem Shaping.swapPage_eq (x : Shaping) (g : Group) : x.swapPage g =
    if x.cycling.entry g = false ∨ (x.crossings.entry g).valley = true then { x with state := x.state.swap g }
    else x := by
  refine if_congr ?_ rfl rfl
  rw [Bool.or_eq_true, Bool.not_eq_true']

theorem State.endingEntry?_eq_some {s : State} {g : Group} {e : BlockEntry}
    (h : (s.cycles.entry g).schedule[(s.cycles.entry g).pointer]? = some e) (ht : (s.cycles.entry g).block = e.target) :
    s.endingEntry? g = some e := by
  have hcurrent : (s.cycles.entry g).current? = some e := h
  simp only [State.endingEntry?, hcurrent, if_pos ht]

theorem State.endingEntry?_eq_none {s : State} {g : Group}
    (h : ∀ e : BlockEntry, (s.cycles.entry g).schedule[(s.cycles.entry g).pointer]? = some e →
      (s.cycles.entry g).block ≠ e.target) : s.endingEntry? g = none := by
  unfold State.endingEntry?
  cases hc : (s.cycles.entry g).current? with
  | none => rfl
  | some e => exact if_neg (h e hc)

section
variable {x : Shaping} {g : Group}

/-- R61: a valley crossing of a cycling group that is its own phase source. -/
def Shaping.counts (x : Shaping) (g : Group) : Prop :=
  x.state.lead g = none ∧ x.cycling.entry g = true ∧ (x.crossings.entry g).valley = true

theorem Shaping.counts_iff : ((x.state.lead g).isNone && x.cycling.entry g && (x.crossings.entry g).valley) = true ↔
    x.counts g := by
  rw [Bool.and_eq_true, Bool.and_eq_true, Option.isNone_iff_eq_none, and_assoc]
  exact Iff.rfl

theorem Shaping.sequence_of_not_counts (h : ¬x.counts g) (mid : List MidEvent) : x.sequence g mid = x.meet mid :=
  if_neg fun hc => h (Shaping.counts_iff.1 hc)

theorem Shaping.sequence_of_ending (h : x.counts g) {e : BlockEntry}
    (he : (x.countCycle g).state.endingEntry? g = some e) (mid : List MidEvent) :
    x.sequence g mid = (((x.countCycle g).endBlock g e).meet mid).tellBoundary g := by
  rw [Shaping.sequence, if_pos (Shaping.counts_iff.2 h)]
  dsimp only
  rw [he]

theorem Shaping.sequence_of_not_ending (h : x.counts g) (he : (x.countCycle g).state.endingEntry? g = none)
    (mid : List MidEvent) : x.sequence g mid = (x.countCycle g).meet mid := by
  rw [Shaping.sequence, if_pos (Shaping.counts_iff.2 h)]
  dsimp only
  rw [he]

theorem Shaping.tellTurning_entry (l : Line) : (x.tellTurning g).state.markers.entry l =
    if x.cycling.entry g = true ∧ (x.state.markers.entry l).group = g.val + 1 ∧
        (((x.state.markers.entry l).kind = .valley ∧ (x.crossings.entry g).valley = true) ∨
          ((x.state.markers.entry l).kind = .peak ∧ (x.crossings.entry g).peak = true)) then
      { x.state.markers.entry l with timer := some (x.state.markers.entry l).width } else x.state.markers.entry l := by
  by_cases hc : x.cycling.entry g = true
  · rw [Shaping.tellTurning, if_pos hc, State.tellMarkers_entry]
    refine if_congr ?_ rfl rfl
    rw [Bool.or_eq_true, Bool.and_eq_true, Bool.and_eq_true, MarkerLine.names_iff, MarkerLine.names_iff]
    tauto
  · rw [Shaping.tellTurning, if_neg hc, if_neg fun h => hc h.1]

end

end Sys2Proof.Machine

namespace Sys2Proof
open Sys2Proof.Machine

/-- Settles O31, by the counting, the boundary that follows it, the swap and the turning points. -/
theorem cyclesCountedAndPagesSwapped : Obligations.CyclesCountedAndPagesSwapped := by
  unfold Obligations.CyclesCountedAndPagesSwapped
  refine ⟨?_, ?_, ?_⟩
  · intro x g h c
    rw [Shaping.countCycle_entry]
    exact ⟨fun hin => if_pos hin, fun hout => if_neg hout⟩
  · intro x g y t
    have ht : t = (x.swapPage g).state := rfl
    rw [ht, Shaping.swapPage_eq]
    refine ⟨fun h hne => ?_, fun ⟨hcycling, hvalley⟩ => ?_, fun hswap => ?_⟩
    · split_ifs
      · exact State.swap_entry_of_ne x.state hne
      · rfl
    · rw [if_neg (by rw [hcycling, hvalley]; decide)]
    · rw [if_pos hswap]
      exact State.swap_entry x.state g
  · intro x g mid valley y c u
    refine ⟨rfl, fun h => Shaping.sequence_of_not_counts h mid, fun h e he ht => ?_, fun h hnone => ?_,
      fun l => Shaping.tellTurning_entry l⟩
    · exact Shaping.sequence_of_ending h (State.endingEntry?_eq_some he ht) mid
    · exact Shaping.sequence_of_not_ending h (State.endingEntry?_eq_none hnone) mid

/-- Settles O33, by the parts of a raise: its entry, its action on each group, and its capture. -/
theorem raiseTaken : Obligations.RaiseTaken := by
  unfold Obligations.RaiseTaken
  intro s r t moved
  refine ⟨fun h => State.raised_of_entry h, fun hnone => ?_⟩
  have halarm : t.alarm =
      { s.alarm with entries := insertEntry (s.newEntry r) s.alarm.entries, counter := s.alarm.counter + 1 } := by
    rw [show t.alarm = _ from State.raised_alarm s r, hnone]
    rfl
  have hstates (q : Trigger) (g : Group) : ((s.acted r).captureRecord q r.sweep).states.entry g = t.groupState g :=
    (Vector.entry_alterAll _ _ _).trans ((congrArg GroupLock.state (Vector.entry_alterAll _ _ _)).trans
      (congrArg GroupLock.state (State.lock_raised_new hnone g)).symm)
  refine ⟨by rw [halarm], by rw [halarm], fun e => ?_, fun g ⟨hmask, hmoves⟩ => ?_, fun g h => ?_,
    fun hasks hroom => ?_, fun hasks hfull => ?_, fun hasks => ?_, Raise.asksCapture_iff r,
    State.raised_unit s r, State.raised_outLane s r, State.raised_retLane s r, State.raised_slotMap s r,
    State.raised_shaper s r, State.raised_pages s r, State.raised_shapes s r, State.raised_cycles s r,
    State.raised_strain s r, State.raised_crack s r, State.raised_sets s r, State.raised_watch s r,
    State.raised_service s r, (StageKeeps.raised s r).acts, State.raised_pending s r⟩
  · rw [halarm]
    exact mem_insertEntry.trans or_comm
  · have hlock : t.lock g = _ := State.lock_raised_moved hnone hmask hmoves
    rw [State.groupState, hlock]
    exact ⟨rfl, rfl, rfl, rfl⟩
  · exact State.lock_raised_unmoved hnone h
  · have ht : t = _ := (State.raised_asking hnone hasks).trans (State.capture_of_room (s := s.acted r) hroom _ _)
    refine ⟨⟨(s.acted r).captureRecord (.raised r.source s.alarm.counter) r.sweep, congrArg State.captures ht, rfl, rfl,
      rfl, fun g => ⟨hstates _ g, Vector.entry_alterAll _ _ _, Vector.entry_alterAll _ _ _⟩, rfl, rfl⟩, fun l => ?_⟩
    exact (congrArg (fun u : State => u.markers.entry l) ht).trans (Vector.entry_alterAll _ _ _)
  · have ht : t = _ := (State.raised_asking hnone hasks).trans (State.capture_of_full (s := s.acted r) hfull _ _)
    exact ⟨(congrArg State.captures ht).trans rfl, (congrArg State.markers ht).trans rfl⟩
  · have ht : t = s.acted r := State.raised_not_asking hnone hasks
    exact ⟨(congrArg State.captures ht).trans rfl, (congrArg State.markers ht).trans rfl⟩

/-- Settles O34, by the event and by the working state of stage 8. -/
theorem engageIntervalEnds : Obligations.EngageIntervalEnds := by
  unfold Obligations.EngageIntervalEnds
  constructor
  · intro s g
    exact ⟨fun hst hdue => congrArg Host.Outcome.next (State.engageEnd_of_due hst hdue),
      fun hst => congrArg Host.Outcome.next (State.engageEnd_of_ne hst)⟩
  · intro x g st l left
    refine ⟨fun h => ?_, fun h => ?_, fun he hu => Shaping.stage8_of_ne he hu⟩
    · rw [Shaping.stage8_engaging h, State.engageReport]
      split_ifs with hst hdue
      · refine congrArg (fun s : State => ({ x with state := s } : Shaping)) (State.onLock_congr ?_)
        exact if_pos hdue
      · refine congrArg (fun s : State => ({ x with state := s } : Shaping)) (State.onLock_congr ?_)
        exact if_neg hdue
      · rfl
    · rw [Shaping.stage8_unload h, State.unloadCompletion, State.moveGroup_of_ne_off _ _ (by decide)]
      by_cases hfloors : x.state.atFloors g = true
      · rw [if_pos hfloors]
        by_cases hst : l.state = .unload
        · rw [if_pos (show x.state.groupState g = .unload from hst), if_pos ⟨State.atFloors_iff.1 hfloors, hst⟩]
        · rw [if_neg (show ¬x.state.groupState g = .unload from hst), if_neg fun hc => hst hc.2]
      · rw [if_neg hfloors, if_neg fun hc => hfloors (State.atFloors_iff.2 hc.1)]

end Sys2Proof
end

section
/-! PROOF. Block boundaries (R67 to R70). -/

namespace Sys2Proof.Machine

open Sys2Proof

/-! ### The set of a lead -/

/-- R67: the groups of a boundary, the lead and the groups that name it. -/
abbrev State.inSet (s : State) (lead h : Group) : Prop := h = lead ∨ s.lead h = some lead

theorem State.mem_linkedTo {s : State} {lead h : Group} : h ∈ s.linkedTo lead ↔ s.lead h = some lead := by
  have hall : h ∈ allGroups := List.mem_ofFn.2 ⟨h, rfl⟩
  rw [State.linkedTo, List.mem_filter, beq_iff_eq, and_iff_right hall]

theorem State.mem_set_iff {s : State} {lead h : Group} : h ∈ lead :: s.linkedTo lead ↔ s.inSet lead h := by
  rw [List.mem_cons, State.mem_linkedTo]

theorem StageKeeps.lead {s t : State} (h : StageKeeps s t) (g : Group) : t.lead g = s.lead g :=
  congrArg GroupRecord.lead (h.record g)

theorem StageKeeps.linkedTo {s t : State} (h : StageKeeps s t) (g : Group) : t.linkedTo g = s.linkedTo g :=
  List.filter_congr fun l _ => by rw [h.lead l]

theorem foldl_or_getLsbD (gs : List Group) (m : BitVec 6) (h : Group) :
    (gs.foldl (fun m g => m ||| BitVec.twoPow 6 g.val) m).getLsbD h.val = true ↔ m.getLsbD h.val = true ∨ h ∈ gs := by
  induction gs generalizing m with
  | nil => simp
  | cons g gs ih =>
    have hbit : (BitVec.twoPow 6 g.val).getLsbD h.val = true ↔ h = g := by
      rw [BitVec.getLsbD_twoPow, Bool.and_eq_true, decide_eq_true_eq, decide_eq_true_eq, and_iff_right g.isLt,
        Fin.val_inj, eq_comm]
    rw [List.foldl_cons, ih, BitVec.getLsbD_or, Bool.or_eq_true, hbit, List.mem_cons, or_assoc]

theorem maskOf_getLsbD {gs : List Group} {h : Group} : (maskOf gs).getLsbD h.val = true ↔ h ∈ gs := by
  rw [maskOf, foldl_or_getLsbD]
  exact or_iff_right (by rw [show (0 : BitVec 6) = 0#6 from rfl, BitVec.getLsbD_zero]; decide)

/-! ### Steps 1 and 2: the counts and the pointer -/

section
variable {s : State} {lead : Group}

theorem State.turnBlock_entry (h : Group) :
    (s.turnBlock lead).cycles.entry h = { s.cycles.entry h with
      block := if s.inSet lead h then 0 else (s.cycles.entry h).block
      pointer := if h = lead then (s.cycles.entry h).nextPointer else (s.cycles.entry h).pointer } := by
  have hcond : (decide (h = lead) || s.lead h == some lead) = true ↔ s.inSet lead h := by
    rw [Bool.or_eq_true, decide_eq_true_eq, beq_iff_eq]
  rw [State.turnBlock, State.onCycles_cycles, State.onAllCycles_cycles, Vector.entry_alter, Vector.entry_alterAll]
  by_cases hlead : h = lead
  · rw [if_pos hlead, if_pos hlead, if_pos (hcond.2 (.inl hlead)), if_pos (show s.inSet lead h from .inl hlead)]
    rfl
  · rw [if_neg hlead, if_neg hlead]
    by_cases hset : s.inSet lead h
    · rw [if_pos hset, if_pos (hcond.2 hset)]
    · rw [if_neg hset, if_neg fun hc => hset (hcond.1 hc)]

theorem State.turnBlock_current {fresh : BlockEntry}
    (hfresh : (s.cycles.entry lead).schedule[(s.cycles.entry lead).nextPointer]? = some fresh) :
    ((s.turnBlock lead).cycles.entry lead).current? = some fresh := by
  rw [GroupCycles.current?, State.turnBlock_entry, if_pos (show lead = lead from rfl)]
  exact hfresh

end

/-! ### Step 3: the pages of the set -/

/-- R67, step 3: what the adoption of a page makes of a group's pages, by whether the page is complete for the group. -/
def GroupPages.adopting (y : GroupPages) (p : Fin 4) (complete : Bool) : GroupPages :=
  { y with
    pendingPage := none
    overridden := y.overridden || y.pendingPage.isSome
    active := if complete then p else y.active }

theorem State.adoptPage_complete (s : State) (p : Fin 4) (g h : Group) (q : Fin 4) :
    (s.adoptPage p g).complete h q = s.complete h q := State.complete_onPages rfl q

theorem State.adoptPage_entry (s : State) (p : Fin 4) (g h : Group) : (s.adoptPage p g).pages.entry h =
    if h = g then (s.pages.entry h).adopting p (s.complete h p) else s.pages.entry h := by
  rw [State.adoptPage, State.onPages_pages, Vector.entry_alter]
  by_cases hg : h = g
  · subst hg
    rw [if_pos rfl, if_pos rfl]
    rfl
  · rw [if_neg hg, if_neg hg]

theorem GroupPages.adopting_adopting (y : GroupPages) (p : Fin 4) (c : Bool) :
    (y.adopting p c).adopting p c = y.adopting p c := by
  cases c <;> simp [GroupPages.adopting]

theorem State.foldl_adoptPage_entry (gs : List Group) (s : State) (p : Fin 4) (h : Group) :
    (gs.foldl (fun s g => s.adoptPage p g) s).pages.entry h =
      if h ∈ gs then (s.pages.entry h).adopting p (s.complete h p) else s.pages.entry h := by
  induction gs generalizing s with
  | nil => rw [if_neg List.not_mem_nil]; rfl
  | cons g gs ih =>
    rw [List.foldl_cons, ih, State.adoptPage_entry, State.adoptPage_complete]
    by_cases hg : h = g
    · rw [if_pos hg, if_pos (List.mem_cons.2 (.inl hg)), GroupPages.adopting_adopting, ite_self]
    · rw [if_neg hg]
      exact if_congr (by rw [List.mem_cons, or_iff_right hg]) rfl rfl

theorem State.foldl_adoptPage_leaves (gs : List Group) (s : State) (p : Fin 4) :
    gs.foldl (fun s g => s.adoptPage p g) s =
      { s with pages := (gs.foldl (fun s g => s.adoptPage p g) s).pages } := by
  induction gs generalizing s with
  | nil => rfl
  | cons g gs ih =>
    rw [List.foldl_cons, ih]
    rfl

/-! ### Step 4: the end action -/

theorem Shaping.endAction_none (x : Shaping) (lead : Group) : x.endAction lead none = x := rfl

theorem Shaping.endAction_some_working (x : Shaping) (lead : Group) (act : Action) (cause : CauseKind) (h : Group) :
    (x.endAction lead (some (act, cause))).working.entry h =
      if (maskOf (lead :: x.state.linkedTo lead)).getLsbD h.val = true then
        ((x.working.entry h).under act).getD (x.working.entry h) else x.working.entry h :=
  Vector.entry_alterAll _ _ _

theorem Shaping.endAction_cycles (x : Shaping) (lead : Group) (what : Option (Action × CauseKind)) :
    (x.endAction lead what).state.cycles = x.state.cycles := by
  cases what with
  | none => rfl
  | some w => exact State.raised_cycles _ _

theorem Shaping.endAction_pages (x : Shaping) (lead : Group) (what : Option (Action × CauseKind)) :
    (x.endAction lead what).state.pages = x.state.pages := by
  cases what with
  | none => rfl
  | some w => exact State.raised_pages _ _

theorem GroupState.under_getD (act : Action) (st : GroupState) : (st.under act).getD st =
    match act, st with
    | .hold, .engaging | .hold, .run => .hold
    | .unload, .engaging | .unload, .run | .unload, .hold => .unload
    | _, st => st := by
  cases act <;> cases st <;> rfl

/-! ### The boundary as far as its end action -/

section
variable {x : Shaping} {lead : Group} {ending fresh : BlockEntry}

/-- R67, steps 1 to 3: the state of a boundary before its end action. -/
def State.boundaryTurned (s : State) (lead : Group) (page : Fin 4) : State :=
  (lead :: s.linkedTo lead).foldl (fun s g => s.adoptPage page g) (s.turnBlock lead)

theorem State.boundaryTurned_cycles (s : State) (lead : Group) (page : Fin 4) :
    (s.boundaryTurned lead page).cycles = (s.turnBlock lead).cycles := by
  rw [State.boundaryTurned, State.foldl_adoptPage_leaves]

theorem State.boundaryTurned_eq (s : State) (lead : Group) (page : Fin 4) : s.boundaryTurned lead page =
    { s with
      cycles := (s.boundaryTurned lead page).cycles
      pages := (s.boundaryTurned lead page).pages } := by
  rw [State.boundaryTurned, State.foldl_adoptPage_leaves]
  rfl

/-- R68: whether the new entry's page is incomplete for a group of the set. -/
def State.boundaryIncomplete (s : State) (lead : Group) (page : Fin 4) : Bool :=
  (lead :: s.linkedTo lead).any (fun g => !s.complete g page)

theorem State.boundaryIncomplete_iff {s : State} {lead : Group} {page : Fin 4} :
    s.boundaryIncomplete lead page = true ↔ ∃ h : Group, s.inSet lead h ∧ s.complete h page = false := by
  simp only [State.boundaryIncomplete, List.any_eq_true, State.mem_set_iff, Bool.not_eq_true']

theorem Shaping.endBlock_eq
    (hfresh : (x.state.cycles.entry lead).schedule[(x.state.cycles.entry lead).nextPointer]? = some fresh) :
    x.endBlock lead ending = ({ x with state := x.state.boundaryTurned lead fresh.page } : Shaping).endAction lead
      (boundaryAction (x.state.boundaryIncomplete lead fresh.page) ending.endAction) := by
  unfold Shaping.endBlock
  simp only [State.turnBlock_current hfresh, Option.getD_some]
  rfl

/-- R68: the end action as the statement words it. -/
theorem boundaryAction_eq (b : Bool) (e : EndAction) : boundaryAction b e =
    if b = true then some (.hold, .incomplete)
    else match e with
      | .cont => none
      | .inspect => some (.hold, .inspect)
      | .unload => some (.unload, .inspect) := by
  unfold boundaryAction
  split_ifs
  · rfl
  · cases e <;> rfl

end

end Sys2Proof.Machine

namespace Sys2Proof
open Sys2Proof.Machine

/-- Settles O32, by the five steps of a boundary in their order. -/
theorem blockBoundary : Obligations.BlockBoundary := by
  unfold Obligations.BlockBoundary
  intro x lead ending fresh inSet c place hfresh u t
  have hu : u = _ := Shaping.endBlock_eq hfresh
  have hcycles : t.cycles = (x.state.turnBlock lead).cycles := by
    calc t.cycles = u.state.cycles := State.capture_cycles _ _ _
      _ = _ := by rw [hu, Shaping.endAction_cycles, State.boundaryTurned_cycles]
  have hpages : t.pages = (x.state.boundaryTurned lead fresh.page).pages := by
    calc t.pages = u.state.pages := State.capture_pages _ _ _
      _ = _ := by rw [hu, Shaping.endAction_pages]
  have hentry (h : Group) : t.pages.entry h = if h ∈ lead :: x.state.linkedTo lead then
      (x.state.pages.entry h).adopting fresh.page (x.state.complete h fresh.page) else x.state.pages.entry h := by
    rw [hpages, State.boundaryTurned, State.foldl_adoptPage_entry]
    rfl
  have hkeeps : x.Keeps u := Shaping.endBlock_keeps x lead ending
  refine ⟨fun h => ?_, fun h hin => ?_, fun h hout => ?_, ?_, ?_⟩
  · rw [hcycles, State.turnBlock_entry]
    by_cases hlead : h = lead
    · subst hlead
      rfl
    · rw [if_neg hlead, if_neg hlead]
  · rw [hentry, if_pos (State.mem_set_iff.2 hin)]
    exact ⟨rfl, rfl, rfl⟩
  · rw [hentry, if_neg fun hin => hout (State.mem_set_iff.1 hin)]
  · intro adopted what
    have hadopted : x.state.boundaryTurned lead fresh.page = adopted := by
      rw [State.boundaryTurned_eq, State.boundaryTurned_cycles, ← hcycles, ← hpages]
    have hwhat : boundaryAction (x.state.boundaryIncomplete lead fresh.page) ending.endAction = what := by
      rw [boundaryAction_eq]
      exact if_congr State.boundaryIncomplete_iff rfl rfl
    rw [hwhat, hadopted] at hu
    refine ⟨fun hnone => ?_, fun act cause hsome => ?_⟩
    · rw [hu, hnone, Shaping.endAction_none]
    · rw [hsome] at hu
      refine ⟨maskOf (lead :: x.state.linkedTo lead), fun h => maskOf_getLsbD.trans State.mem_set_iff, ?_,
        fun h hout => ?_, fun h hin => ?_⟩
      · rw [hu]
        rfl
      · rw [hu, Shaping.endAction_some_working]
        exact if_neg fun hm => hout (State.mem_set_iff.1 (maskOf_getLsbD.1 hm))
      · rw [hu, Shaping.endAction_some_working]
        exact (if_pos (maskOf_getLsbD.2 (State.mem_set_iff.2 hin))).trans (GroupState.under_getD _ _)
  · intro taken
    have hnumber : u.number = x.number := hkeeps.number
    have ht : t = taken.tellMarkers fun m => (lead :: u.state.linkedTo lead).any fun g => m.names .block g := by
      simp only [taken, ← hnumber]
      rfl
    refine ⟨by rw [ht]; rfl, fun l => ?_, rfl⟩
    rw [ht, State.tellMarkers_entry]
    refine if_congr ?_ rfl rfl
    simp only [List.any_eq_true, hkeeps.state.linkedTo, State.mem_set_iff, MarkerLine.names_iff]
    exact ⟨fun ⟨h, hin, hkind, hgroup⟩ => ⟨hkind, h, hin, hgroup⟩, fun ⟨hkind, h, hin, hgroup⟩ => ⟨h, hin, hkind, hgroup⟩⟩

end Sys2Proof
end

section
/-! PROOF. The outbound sweep: the order in which the groups are dealt with, what the work on one group leaves of another, and
what stage 7 writes (R26 to R29, R47). -/

namespace Sys2Proof.Machine

open Sys2Proof

/-! ### Taking the sweep (R26, R29) -/

/-- R84: what the report that ends an engage interval makes of a group, where it stands. -/
def GroupLock.reported (l : GroupLock) : GroupLock :=
  if l.state = .engaging ∧ l.reportDue = true then { l with state := .run, engageCount := 0, reportDue := false } else l

theorem GroupLock.reported_reported (l : GroupLock) : l.reported.reported = l.reported := by
  unfold GroupLock.reported
  split_ifs with h h'
  · exact absurd h'.1 (by decide)
  · rfl
  · rfl

theorem State.engageEnd_eq (s : State) (g : Group) : s.engageEnd g = s.onLock g GroupLock.reported := by
  by_cases h : (s.lock g).state = .engaging ∧ (s.lock g).reportDue = true
  · rw [State.engageEnd_of_due h.1 h.2]
    exact State.onLock_congr (if_pos h).symm
  · have hend : s.engageEnd g = s := if_neg fun hc => h (by rwa [Bool.and_eq_true, decide_eq_true_eq] at hc)
    exact hend.trans (State.onLock_self s (if_neg h)).symm

theorem State.foldl_engageEnd_lock (gs : List Group) (s : State) (h : Group) :
    (gs.foldl State.engageEnd s).lock h = if h ∈ gs then (s.lock h).reported else s.lock h := by
  induction gs generalizing s with
  | nil => rw [if_neg List.not_mem_nil]; rfl
  | cons g gs ih =>
    rw [List.foldl_cons, ih, State.engageEnd_eq, State.lock_onLock]
    by_cases hg : h = g
    · rw [if_pos hg, if_pos (List.mem_cons.2 (.inl hg)), GroupLock.reported_reported, ite_self]
    · rw [if_neg hg]
      exact if_congr (by rw [List.mem_cons, or_iff_right hg]) rfl rfl

theorem State.reportsTaken_lock (s : State) (g : Group) : s.reportsTaken.lock g = (s.lock g).reported := by
  rw [State.reportsTaken, State.foldl_engageEnd_lock, if_pos]
  exact List.mem_ofFn.2 ⟨g, rfl⟩

theorem State.reportsTaken_keeps (s : State) : StageKeeps s s.reportsTaken :=
  StageKeeps.foldl StageKeeps.engageEnd _ _

theorem State.reportsTaken_mid (s : State) : MidKeeps s s.reportsTaken := MidKeeps.foldl MidKeeps.engageEnd _ _

theorem State.groupState_reportsTaken (s : State) (g : Group) : s.reportsTaken.groupState g =
    if s.groupState g = .engaging ∧ (s.lock g).reportDue = true then .run else s.groupState g := by
  rw [State.groupState, State.reportsTaken_lock, GroupLock.reported]
  split_ifs with h h' h'
  · rfl
  · exact absurd h h'
  · exact absurd h' h
  · rfl

section
variable (s : State) (sw : Sweep)

theorem State.sweepInHand_pending : (s.sweepInHand sw).state.pending = s.pending := rfl
theorem State.sweepInHand_unit : (s.sweepInHand sw).state.unit = s.unit := rfl
theorem State.sweepInHand_outLane : (s.sweepInHand sw).state.outLane = s.outLane := rfl
theorem State.sweepInHand_slotMap : (s.sweepInHand sw).state.slotMap = s.slotMap := rfl
theorem State.sweepInHand_shapes : (s.sweepInHand sw).state.shapes = s.shapes := rfl
theorem State.sweepInHand_received : (s.sweepInHand sw).received = sw.slots := rfl
theorem State.sweepInHand_slots : (s.sweepInHand sw).slots = sw.slots := rfl
theorem State.sweepInHand_number : (s.sweepInHand sw).number = sw.number := rfl
theorem State.sweepInHand_lastTaken : (s.sweepInHand sw).state.shaper.lastTaken = sw.number := rfl
theorem State.sweepInHand_actuator (a : Actuator) : (s.sweepInHand sw).state.actuator a = s.actuator a := rfl
theorem State.sweepInHand_lead (g : Group) : (s.sweepInHand sw).state.lead g = s.lead g := rfl
theorem State.sweepInHand_shape (g : Group) : (s.sweepInHand sw).state.shape g = s.shape g := rfl

/-- R29: the groups that cycle, by the working states fixed. -/
theorem State.sweepInHand_cycling (g : Group) : (s.sweepInHand sw).cycling.entry g = true ↔
    (s.sweepInHand sw).working.entry g = .run ∧ (s.sweepInHand sw).working.entry ((s.lead g).getD g) = .run ∧
      1 ≤ (s.activePage ((s.lead g).getD g)).step := by
  have hcycling : (s.sweepInHand sw).cycling.entry g = s.cyclingNow (s.sweepInHand sw).working g :=
    Vector.entry_alterAll _ _ _
  rw [hcycling, State.cyclingNow, Bool.and_eq_true, Bool.and_eq_true, decide_eq_true_eq, decide_eq_true_eq,
    decide_eq_true_eq, and_assoc]
  exact Iff.rfl

theorem State.takeSweep_working (g : Group) : (s.takeSweep sw).working.entry g =
    if s.groupState g = .engaging ∧ (s.lock g).reportDue = true then .run else s.groupState g := by
  rw [State.takeSweep_eq, State.sweepInHand_working, State.groupState_reportsTaken]

theorem State.takeSweep_lead (g : Group) : (s.takeSweep sw).state.lead g = s.lead g := by
  rw [State.takeSweep_eq, State.sweepInHand_lead, s.reportsTaken_keeps.lead]

theorem State.takeSweep_cycling (g : Group) : (s.takeSweep sw).cycling.entry g = true ↔
    (s.takeSweep sw).working.entry g = .run ∧ (s.takeSweep sw).working.entry ((s.lead g).getD g) = .run ∧
      1 ≤ (s.activePage ((s.lead g).getD g)).step := by
  have hpage (h : Group) : s.reportsTaken.activePage h = s.activePage h := by
    unfold State.activePage State.page
    rw [s.reportsTaken_mid.pages]
  rw [State.takeSweep_eq, State.sweepInHand_cycling, s.reportsTaken_keeps.lead, hpage]

theorem State.takeSweep_received : (s.takeSweep sw).received = sw.slots := by
  rw [State.takeSweep_eq, State.sweepInHand_received]

theorem State.takeSweep_slots : (s.takeSweep sw).slots = sw.slots := by
  rw [State.takeSweep_eq, State.sweepInHand_slots]

theorem State.takeSweep_number : (s.takeSweep sw).number = sw.number := by
  rw [State.takeSweep_eq, State.sweepInHand_number]

theorem State.takeSweep_lastTaken : (s.takeSweep sw).state.shaper.lastTaken = sw.number := by
  rw [State.takeSweep_eq, State.sweepInHand_lastTaken]

theorem State.takeSweep_offs : (s.takeSweep sw).Offs := by
  rw [State.takeSweep_eq]
  exact State.sweepInHand_offs _ sw

theorem State.takeSweep_shape (g : Group) : (s.takeSweep sw).state.shape g = s.shape g := by
  rw [State.takeSweep_eq, State.sweepInHand_shape, State.shape, s.reportsTaken_mid.shaper, State.shape]

theorem State.takeSweep_outLane : (s.takeSweep sw).state.outLane = s.outLane := by
  rw [State.takeSweep_eq, State.sweepInHand_outLane, s.reportsTaken_keeps.outLane]

theorem State.takeSweep_unit : (s.takeSweep sw).state.unit = s.unit := by
  rw [State.takeSweep_eq, State.sweepInHand_unit, s.reportsTaken_keeps.unit]

theorem State.takeSweep_pending : (s.takeSweep sw).state.pending = s.pending := by
  rw [State.takeSweep_eq, State.sweepInHand_pending, s.reportsTaken_keeps.pending]

theorem State.takeSweep_slotMap : (s.takeSweep sw).state.slotMap = s.slotMap := by
  rw [State.takeSweep_eq, State.sweepInHand_slotMap, s.reportsTaken_keeps.slotMap]

theorem State.takeSweep_shapes : (s.takeSweep sw).state.shapes = s.shapes := by
  rw [State.takeSweep_eq, State.sweepInHand_shapes, s.reportsTaken_keeps.shapes]

theorem State.takeSweep_group (a : Actuator) : ((s.takeSweep sw).state.actuator a).group = (s.actuator a).group := by
  rw [State.takeSweep_eq, State.sweepInHand_actuator, s.reportsTaken_mid.group]

end

/-! ### The order of the groups (R26) -/

theorem State.linkedTo_eq (s : State) (g : Group) : s.linkedTo g = allGroups.filter (fun h => s.lead h = some g) :=
  List.filter_congr fun h _ => Bool.eq_iff_iff.2 (by rw [beq_iff_eq, decide_eq_true_eq])

theorem State.shapingOrder_eq (s : State) : s.shapingOrder = (allGroups.map (fun g =>
    if s.lead g = none then g :: allGroups.filter (fun h => s.lead h = some g) else [])).flatten := by
  rw [State.shapingOrder]
  refine congrArg List.flatten (List.map_congr_left fun g _ => ?_)
  rw [State.linkedTo_eq]
  exact if_congr Option.isNone_iff_eq_none rfl rfl

theorem State.shapingOrder_congr {s t : State} (h : ∀ g : Group, t.lead g = s.lead g) :
    t.shapingOrder = s.shapingOrder := by
  rw [State.shapingOrder_eq, State.shapingOrder_eq]
  simp only [h]

theorem State.mem_shapingOrder {s : State} {g : Group} : g ∈ s.shapingOrder ↔
    s.lead g = none ∨ ∃ h : Group, s.lead h = none ∧ s.lead g = some h := by
  have hall (h : Group) : h ∈ allGroups := List.mem_ofFn.2 ⟨h, rfl⟩
  simp only [State.shapingOrder, List.mem_flatten, List.mem_map]
  constructor
  · rintro ⟨_, ⟨h, -, rfl⟩, hg⟩
    split_ifs at hg with hlead
    · rw [Option.isNone_iff_eq_none] at hlead
      rcases List.mem_cons.1 hg with rfl | hlinked
      · exact .inl hlead
      · exact .inr ⟨h, hlead, State.mem_linkedTo.1 hlinked⟩
    · cases hg
  · rintro (hlead | ⟨h, hlead, hg⟩)
    · refine ⟨_, ⟨g, hall g, rfl⟩, ?_⟩
      rw [if_pos (Option.isNone_iff_eq_none.2 hlead)]
      exact List.mem_cons_self
    · refine ⟨_, ⟨h, hall h, rfl⟩, ?_⟩
      rw [if_pos (Option.isNone_iff_eq_none.2 hlead)]
      exact List.mem_cons_of_mem _ (State.mem_linkedTo.2 hg)

theorem State.unassigned_eq (s : State) :
    s.unassigned = allActuators.filter (fun a => (s.actuator a).group = none) :=
  List.filter_congr fun a _ => Bool.eq_iff_iff.2 (by rw [decide_eq_true_eq, Option.isNone_iff_eq_none])

theorem State.unassigned_congr {s t : State} (h : ∀ a : Actuator, (t.actuator a).group = (s.actuator a).group) :
    t.unassigned = s.unassigned := by
  unfold State.unassigned
  simp only [h]

/-! ### The groups in their order, each with the events of its five places -/

/-- One group of the order dealt with, by its place in the order. -/
def Shaping.dealAt (during : List (List MidEvent)) (x : Shaping) (gi : Group × Nat) : Shaping :=
  x.dealGroup gi.1 (during.drop (5 * gi.2))

theorem Shaping.dealGroups_zipIdx (during : List (List MidEvent)) (gs : List Group) (k : Nat) (x : Shaping) :
    Shaping.dealGroups gs (during.drop (5 * k)) x =
      ((gs.zipIdx k).foldl (Shaping.dealAt during) x).meet (during.drop (5 * (k + gs.length))).flatten := by
  induction gs generalizing k x with
  | nil => rfl
  | cons g gs ih =>
    have hrest : (during.drop (5 * k)).drop 5 = during.drop (5 * (k + 1)) := by rw [List.drop_drop, Nat.mul_succ]
    rw [Shaping.dealGroups, hrest, ih, List.zipIdx_cons, List.foldl_cons, List.length_cons, Nat.add_right_comm,
      Nat.add_assoc]
    rfl

theorem getD_drop (during : List (List MidEvent)) (n k : Nat) :
    (during.drop n).getD k [] = during.getD (n + k) [] := by
  rw [List.getD_eq_getElem?_getD, List.getElem?_drop, List.getD_eq_getElem?_getD]

/-! ### What the work on a group leaves of the phase and the state last shaped -/

/-- The phase and the state last shaped of every group stand. -/
def ShapeKept (s t : State) : Prop :=
  ∀ g : Group, (t.shape g).theta = (s.shape g).theta ∧ (t.shape g).lastShaped = (s.shape g).lastShaped

theorem ShapeKept.ofShaper {s t : State} (h : t.shaper.groups = s.shaper.groups) : ShapeKept s t := fun g => by
  unfold State.shape
  rw [h]
  exact ⟨rfl, rfl⟩

theorem ShapeKept.trans {s t u : State} (h : ShapeKept s t) (k : ShapeKept t u) : ShapeKept s u :=
  fun g => ⟨(k g).1.trans (h g).1, (k g).2.trans (h g).2⟩

theorem ShapeKept.onShape (s : State) {g : Group} {f : GroupShape → GroupShape}
    (hf : ∀ y, (f y).theta = y.theta ∧ (f y).lastShaped = y.lastShaped) : ShapeKept s (s.onShape g f) := fun h => by
  rw [State.shape_onShape]
  split_ifs
  · exact hf _
  · exact ⟨rfl, rfl⟩

/-- What every stage of the work on one group leaves of a group: its phase where it is not cycling; and where it is worked on
in OFF, UNLOAD or REST, its working state, and its state last shaped where that is its working state. -/
structure Shaping.Stays (g : Group) (x y : Shaping) : Prop where
  cycling : y.cycling = x.cycling
  theta : x.cycling.entry g = false → (y.state.shape g).theta = (x.state.shape g).theta
  working : ¬(x.working.entry g).isSummed → y.working.entry g = x.working.entry g
  last : ¬(x.working.entry g).isSummed → (x.state.shape g).lastShaped = some (x.working.entry g) →
    (y.state.shape g).lastShaped = some (x.working.entry g)

section
variable {g : Group} {x y z : Shaping}

theorem Shaping.Stays.refl (x : Shaping) : x.Stays g x := ⟨rfl, fun _ => rfl, fun _ => rfl, fun _ h => h⟩

theorem Shaping.Stays.trans (h : Shaping.Stays g x y) (k : Shaping.Stays g y z) : Shaping.Stays g x z where
  cycling := k.cycling.trans h.cycling
  theta hc := (k.theta (by rwa [h.cycling])).trans (h.theta hc)
  working hs := (k.working (by rwa [h.working hs])).trans (h.working hs)
  last hs hl := by
    have hlast := k.last (by rwa [h.working hs]) (by rw [h.working hs]; exact h.last hs hl)
    rwa [h.working hs] at hlast

theorem Shaping.Stays.ofShape (hc : y.cycling = x.cycling)
    (hw : ¬(x.working.entry g).isSummed → y.working.entry g = x.working.entry g) (hs : ShapeKept x.state y.state) :
    Shaping.Stays g x y := ⟨hc, fun _ => (hs g).1, hw, fun _ hl => (hs g).2.trans hl⟩

theorem Shaping.Stays.ofState {t : State} (hs : ShapeKept x.state t) : Shaping.Stays g x { x with state := t } :=
  .ofShape rfl (fun _ => rfl) hs

theorem Shaping.Stays.foldl {α : Type} {f : Shaping → α → Shaping} (hf : ∀ y a, Shaping.Stays g y (f y a)) (l : List α)
    (x : Shaping) : Shaping.Stays g x (l.foldl f x) := by
  induction l generalizing x with
  | nil => exact .refl x
  | cons a l ih => exact (hf x a).trans (ih (f x a))

theorem Shaping.Stays.meet (x : Shaping) (es : List MidEvent) : Shaping.Stays g x (x.meet es) :=
  .ofState (.ofShaper (congrArg Shaper.groups (MidKeeps.foldl MidKeeps.meet es x.state).shaper))

theorem Shaping.Stays.stage1 (x : Shaping) (h : Group) : Shaping.Stays g x (x.stage1 h) := by
  cases hc : x.cycling.entry h with
  | false =>
    rw [Shaping.stage1_of_not_cycling hc]
    exact .refl x
  | true =>
    cases hl : x.state.lead h with
    | some lead =>
      rw [Shaping.stage1_of_lead hl hc]
      exact .ofShape rfl (fun _ => rfl) (.ofShaper rfl)
    | none =>
      rw [Shaping.stage1_of_own hl hc]
      refine ⟨rfl, fun hg => ?_, fun _ => rfl, fun _ hlast => ?_⟩
      · have hne : g ≠ h := by
          rintro rfl
          rw [hc] at hg
          cases hg
        show ((x.state.onShape h _).shape g).theta = _
        rw [State.shape_onShape, if_neg hne]
      · refine Eq.trans ?_ hlast
        show ((x.state.onShape h _).shape g).lastShaped = _
        rw [State.shape_onShape]
        split_ifs <;> rfl

/-! ### Stage 2 -/

theorem GroupState.under_of_not_summed {act : Action} {st : GroupState} (h : ¬st.isSummed) : st.under act = none := by
  refine GroupState.under_of_not_moves fun hm => h ?_
  rcases hm with ⟨-, hst⟩ | ⟨-, hst⟩
  · exact hst.imp_right .inl
  · exact hst

theorem Shaping.Stays.endAction (x : Shaping) (lead : Group) (what : Option (Action × CauseKind)) :
    Shaping.Stays g x (x.endAction lead what) := by
  cases what with
  | none => exact .refl x
  | some w =>
    refine .ofShape rfl (fun hs => ?_) (.ofShaper (congrArg Shaper.groups (State.raised_shaper _ _)))
    rw [Shaping.endAction_some_working, GroupState.under_of_not_summed hs]
    exact ite_self _

theorem Shaping.Stays.endBlock (x : Shaping) (lead : Group) (ending : BlockEntry) :
    Shaping.Stays g x (x.endBlock lead ending) := by
  refine .trans (.ofState (.ofShaper ?_)) (.endAction _ lead _)
  rw [State.foldl_adoptPage_leaves]
  rfl

theorem Shaping.Stays.tellBoundary (x : Shaping) (lead : Group) : Shaping.Stays g x (x.tellBoundary lead) :=
  .ofState (.ofShaper (congrArg Shaper.groups (State.capture_shaper _ _ _)))

theorem Shaping.Stays.sequence (x : Shaping) (h : Group) (mid : List MidEvent) :
    Shaping.Stays g x (x.sequence h mid) := by
  have hcount : Shaping.Stays g x (x.countCycle h) := .ofState (.ofShaper rfl)
  by_cases hc : x.counts h
  · cases he : (x.countCycle h).state.endingEntry? h with
    | none =>
      rw [Shaping.sequence_of_not_ending hc he]
      exact hcount.trans (.meet _ mid)
    | some e =>
      rw [Shaping.sequence_of_ending hc he]
      exact ((hcount.trans (.endBlock _ h e)).trans (.meet _ mid)).trans (.tellBoundary _ h)
  · rw [Shaping.sequence_of_not_counts hc]
    exact .meet x mid

theorem State.swap_shaper (s : State) (h : Group) : (s.swap h).shaper = s.shaper := by
  cases hp : (s.pages.entry h).pendingPage with
  | none => rw [State.swap_of_none hp]
  | some p => rw [State.swap_of_some hp, State.onPages_shaper]

theorem Shaping.Stays.stage2 (x : Shaping) (h : Group) (mid : List MidEvent) : Shaping.Stays g x (x.stage2 h mid) := by
  have hswap (y : Shaping) : Shaping.Stays g y (y.swapPage h) := by
    rw [Shaping.swapPage_eq]
    split_ifs
    · exact .ofState (.ofShaper (congrArg Shaper.groups (State.swap_shaper _ h)))
    · exact .refl y
  have htell (y : Shaping) : Shaping.Stays g y (y.tellTurning h) := by
    unfold Shaping.tellTurning
    split_ifs
    · exact .ofState (.ofShaper rfl)
    · exact .refl y
  exact ((Shaping.Stays.sequence x h mid).trans (hswap _)).trans (htell _)

/-! ### Stages 3 to 6 -/

theorem Shaping.Stays.rearmSum (x : Shaping) (h : Group) : Shaping.Stays g x (x.rearmSum h) :=
  .ofState (.onShape _ fun _ => ⟨rfl, rfl⟩)

theorem Shaping.Stays.trip {h : Group} (hsum : (x.working.entry h).isSummed) : Shaping.Stays g x (x.trip h) := by
  refine .ofShape rfl (fun hs => ?_) (.trans (t := if (x.state.shape h).sumArmed then
    x.state.raised (x.state.sumRaise h x.number) else x.state) (.ofShaper ?_) (.onShape _ fun _ => ⟨rfl, rfl⟩))
  · exact Vector.entry_alter_of_ne _ _ fun e => hs (e ▸ hsum)
  · split_ifs
    · exact congrArg Shaper.groups (State.raised_shaper _ _)
    · rfl

theorem Shaping.Stays.sumCheck {h : Group} (hsum : (x.working.entry h).isSummed) (cands : List Output) :
    Shaping.Stays g x (x.sumCheck h cands).1 := by
  unfold Shaping.sumCheck
  dsimp only
  split_ifs
  · exact .rearmSum x h
  · exact .rearmSum x h
  · exact .trip hsum

theorem Shaping.working_withHolds (x : Shaping) (h : Group) : (x.withHolds h).working = x.working := by
  rcases x.withHolds_cases h with e | e <;> rw [e]

theorem Shaping.Stays.withHolds (x : Shaping) (h : Group) : Shaping.Stays g x (x.withHolds h) := by
  rcases x.withHolds_cases h with e | e <;> rw [e]
  · exact .ofState (.ofShaper rfl)
  · exact .refl x

theorem Shaping.stage3to6_settled {h : Group} (hs : ¬(x.working.entry h).isSummed) :
    (x.stage3to6 h).1 = x.rearmSum h := by
  unfold Shaping.stage3to6
  cases hw : x.working.entry h with
  | off | unload | rest => rfl
  | engaging => exact absurd (.inl hw) hs
  | run => exact absurd (.inr (.inl hw)) hs
  | hold => exact absurd (.inr (.inr hw)) hs

theorem Shaping.Stays.stage3to6 (x : Shaping) (h : Group) : Shaping.Stays g x (x.stage3to6 h).1 := by
  by_cases hsum : (x.working.entry h).isSummed
  · rw [Shaping.stage3to6_summed hsum]
    exact (Shaping.Stays.withHolds x h).trans (.sumCheck (by rwa [Shaping.working_withHolds]) _)
  · rw [Shaping.stage3to6_settled hsum]
    exact .rearmSum x h

/-! ### Stages 7 and 8 -/

theorem Shaping.writeSlot_working (x : Shaping) (o : Output) : (x.writeSlot o).working = x.working := by
  unfold Shaping.writeSlot
  split <;> rfl

theorem Shaping.Stays.write (x : Shaping) (o : Output) (a : Actuator) (f : ActuatorOutput → ActuatorOutput) :
    Shaping.Stays g x { x.writeSlot o with state := x.state.onOutput a f } :=
  .ofShape (x.writeSlot_keeps o).cycling (fun _ => by rw [Shaping.writeSlot_working]) (.ofShaper rfl)

theorem Shaping.Stays.keep (x : Shaping) (o : Output) : Shaping.Stays g x (x.keep o) := .write x o _ _

theorem Shaping.Stays.writeNone (x : Shaping) (a : Actuator) : Shaping.Stays g x (x.writeNone a) := .write x _ _ _

theorem Shaping.markShaped_shape (x : Shaping) (g : Group) : (x.markShaped g).state.shape g =
    { x.state.shape g with lastShaped := some (x.working.entry g) } := State.shape_onShape_same _ _ _

theorem Shaping.markShaped_working (x : Shaping) (g : Group) : (x.markShaped g).working = x.working := rfl

theorem Shaping.Stays.markShaped (x : Shaping) (h : Group) : Shaping.Stays g x (x.markShaped h) := by
  refine ⟨rfl, fun _ => ?_, fun _ => rfl, fun _ hlast => ?_⟩
  · show ((x.state.onShape h _).shape g).theta = _
    rw [State.shape_onShape]
    split_ifs <;> rfl
  · show ((x.state.onShape h _).shape g).lastShaped = _
    rw [State.shape_onShape]
    split_ifs with hg
    · rw [hg]
    · exact hlast

/-- R34, R47: the writes of stage 7, before the state last shaped is kept. -/
def Shaping.stage7Writes (x : Shaping) (g : Group) (outs : List Output) : Shaping :=
  if x.working.entry g = .off then (x.state.members g).foldl Shaping.writeNone x else outs.foldl Shaping.keep x

theorem Shaping.stage7_eq (x : Shaping) (g : Group) (outs : List Output) :
    x.stage7 g outs = (x.stage7Writes g outs).markShaped g := by
  unfold Shaping.stage7 Shaping.stage7Writes
  split_ifs <;> rfl

theorem Shaping.Stays.stage7Writes (x : Shaping) (h : Group) (outs : List Output) :
    Shaping.Stays g x (x.stage7Writes h outs) := by
  unfold Shaping.stage7Writes
  split_ifs
  · exact .foldl .writeNone _ x
  · exact .foldl .keep _ x

theorem State.engageReport_shaper (s : State) (h : Group) : (s.engageReport h).shaper = s.shaper := by
  unfold State.engageReport
  split_ifs <;> rfl

theorem State.unloadCompletion_shaper (s : State) (h : Group) : (s.unloadCompletion h).shaper = s.shaper := by
  rw [State.unloadCompletion, State.moveGroup_of_ne_off _ _ (by decide)]
  split_ifs <;> rfl

theorem Shaping.stage8_cases (x : Shaping) (h : Group) :
    x.stage8 h = x ∨ ∃ t : State, x.stage8 h = { x with state := t } ∧ t.shaper = x.state.shaper := by
  by_cases he : x.working.entry h = .engaging
  · exact .inr ⟨_, Shaping.stage8_engaging he, State.engageReport_shaper _ h⟩
  by_cases hu : x.working.entry h = .unload
  · rw [Shaping.stage8_unload hu]
    split_ifs
    · exact .inr ⟨_, rfl, State.unloadCompletion_shaper _ h⟩
    · exact .inl rfl
  · exact .inl (Shaping.stage8_of_ne he hu)

theorem Shaping.Stays.stage8 (x : Shaping) (h : Group) : Shaping.Stays g x (x.stage8 h) := by
  rcases x.stage8_cases h with e | ⟨t, e, hshaper⟩ <;> rw [e]
  · exact .refl x
  · exact .ofState (.ofShaper (congrArg Shaper.groups hshaper))

theorem Shaping.Stays.recordCycling (x : Shaping) (h : Group) : Shaping.Stays g x (x.recordCycling h) :=
  .ofState (.onShape _ fun _ => ⟨rfl, rfl⟩)

/-! ### A group, and all the groups -/

/-- The work on a group as far as its outputs are written. -/
def Shaping.dealtWrites (x : Shaping) (g : Group) (during : List (List MidEvent)) : Shaping :=
  let paged := ((x.meet (during.getD 0 [])).stage1 g).stage2 g (during.getD 1 [])
  let worked := (paged.meet (during.getD 2 [])).stage3to6 g
  (worked.1.meet (during.getD 3 [])).stage7Writes g worked.2

theorem Shaping.dealGroup_eq (x : Shaping) (g : Group) (during : List (List MidEvent)) : x.dealGroup g during =
    ((((x.dealtWrites g during).markShaped g).meet (during.getD 4 [])).stage8 g).recordCycling g := by
  simp only [Shaping.dealGroup, Shaping.dealtWrites, Shaping.stage7_eq]

theorem Shaping.Stays.dealtWrites (x : Shaping) (h : Group) (during : List (List MidEvent)) :
    Shaping.Stays g x (x.dealtWrites h during) :=
  (((((Shaping.Stays.meet x _).trans (.stage1 _ h)).trans (.stage2 _ h _)).trans (.meet _ _)).trans
    (.stage3to6 _ h)).trans ((Shaping.Stays.meet _ _).trans (.stage7Writes _ h _))

theorem Shaping.Stays.afterWrites (x : Shaping) (h : Group) (es : List MidEvent) :
    Shaping.Stays g x (((x.meet es).stage8 h).recordCycling h) :=
  ((Shaping.Stays.meet x es).trans (.stage8 _ h)).trans (.recordCycling _ h)

theorem Shaping.Stays.dealGroup (x : Shaping) (h : Group) (during : List (List MidEvent)) :
    Shaping.Stays g x (x.dealGroup h during) := by
  rw [Shaping.dealGroup_eq]
  exact ((Shaping.Stays.dealtWrites x h during).trans (.markShaped _ h)).trans (.afterWrites _ h _)

/-- R47: a group dealt with in OFF, UNLOAD or REST was last shaped in that state. -/
theorem Shaping.dealGroup_lastShaped (hs : ¬(x.working.entry g).isSummed) (during : List (List MidEvent)) :
    ((x.dealGroup g during).state.shape g).lastShaped = some (x.working.entry g) := by
  have hwrites := Shaping.Stays.dealtWrites (g := g) x g during
  have hworking := hwrites.working hs
  have hmark : (((x.dealtWrites g during).markShaped g).state.shape g).lastShaped = some (x.working.entry g) := by
    rw [Shaping.markShaped_shape, hworking]
  have hafter := Shaping.Stays.afterWrites (g := g) ((x.dealtWrites g during).markShaped g) g (during.getD 4 [])
  have hsame : ((x.dealtWrites g during).markShaped g).working.entry g = x.working.entry g := by
    rw [Shaping.markShaped_working, hworking]
  rw [Shaping.dealGroup_eq]
  have hlast := hafter.last (by rwa [hsame]) (by rw [hsame]; exact hmark)
  rwa [hsame] at hlast

theorem Shaping.Stays.dealGroups (gs : List Group) (during : List (List MidEvent)) (x : Shaping) :
    Shaping.Stays g x (Shaping.dealGroups gs during x) := by
  induction gs generalizing during x with
  | nil => exact .meet x _
  | cons h gs ih => exact (Shaping.Stays.dealGroup x h during).trans (ih _ _)

theorem Shaping.dealGroups_lastShaped {gs : List Group} (hg : g ∈ gs) (during : List (List MidEvent))
    (hs : ¬(x.working.entry g).isSummed) :
    ((Shaping.dealGroups gs during x).state.shape g).lastShaped = some (x.working.entry g) := by
  induction gs generalizing during x with
  | nil => cases hg
  | cons h gs ih =>
    have hdeal := Shaping.Stays.dealGroup (g := g) x h during
    have hworking := hdeal.working hs
    rw [Shaping.dealGroups]
    by_cases hgs : g ∈ gs
    · rw [ih hgs _ (by rwa [hworking]), hworking]
    · obtain rfl : g = h := (List.mem_cons.1 hg).resolve_right hgs
      have hrest := (Shaping.Stays.dealGroups (g := g) gs (during.drop 5) (x.dealGroup g during)).last
        (by rwa [hworking]) (by rw [hworking]; exact Shaping.dealGroup_lastShaped hs during)
      rwa [hworking] at hrest

theorem Shaping.Stays.dealAll (x : Shaping) (during : List (List MidEvent)) : Shaping.Stays g x (x.dealAll during) :=
  (Shaping.Stays.dealGroups _ during x).trans (.foldl .writeNone _ _)

theorem Shaping.dealAll_lastShaped (hg : g ∈ x.state.shapingOrder) (hs : ¬(x.working.entry g).isSummed)
    (during : List (List MidEvent)) :
    ((x.dealAll during).state.shape g).lastShaped = some (x.working.entry g) := by
  have hgroups := Shaping.Stays.dealGroups (g := g) x.state.shapingOrder during x
  have hworking := hgroups.working hs
  have hlast := (Shaping.Stays.foldl (g := g) .writeNone
    (Shaping.dealGroups x.state.shapingOrder during x).state.unassigned
    (Shaping.dealGroups x.state.shapingOrder during x)).last (by rwa [hworking])
    (by rw [hworking]; exact Shaping.dealGroups_lastShaped hg during hs)
  rwa [hworking] at hlast

end

/-! ### The whole sweep -/

/-- The state once the frame at the head of the outbound lane has left the waiting frames. -/
def State.withWaiting (s : State) (rest : List Waiting) : State := { s with outLane := { s.outLane with waiting := rest } }

/-- R5, R26: the sweep at the head of the outbound lane shaped. -/
def State.shapedSweep (s : State) (rest : List Waiting) (sw : Sweep) (during : List (List MidEvent)) : Shaping :=
  ((s.withWaiting rest).takeSweep sw).dealAll during

section
variable (s : State) (rest : List Waiting) (sw : Sweep) (during : List (List MidEvent))

theorem State.shapedSweep_deals : Shaping.Deals ((s.withWaiting rest).takeSweep sw) (s.shapedSweep rest sw during) :=
  Shaping.Deals.dealAll (State.takeSweep_offs _ sw) during

theorem State.shapedSweep_outLane : (s.shapedSweep rest sw during).state.outLane = { s.outLane with waiting := rest } := by
  rw [(s.shapedSweep_deals rest sw during).worked.outLane, State.takeSweep_outLane]
  rfl

theorem State.shapedSweep_unit : (s.shapedSweep rest sw during).state.unit = s.unit := by
  rw [(s.shapedSweep_deals rest sw during).worked.unit, State.takeSweep_unit]
  rfl

theorem State.shapedSweep_pending : (s.shapedSweep rest sw during).state.pending = s.pending := by
  rw [(s.shapedSweep_deals rest sw during).worked.pending, State.takeSweep_pending]
  rfl

theorem State.shapedSweep_slotMap : (s.shapedSweep rest sw during).state.slotMap = s.slotMap := by
  rw [(s.shapedSweep_deals rest sw during).worked.slotMap, State.takeSweep_slotMap]
  rfl

theorem State.shapedSweep_shapes : (s.shapedSweep rest sw during).state.shapes = s.shapes := by
  rw [(s.shapedSweep_deals rest sw during).worked.shapes, State.takeSweep_shapes]
  rfl

theorem State.shapedSweep_order : ((s.withWaiting rest).takeSweep sw).state.shapingOrder = s.shapingOrder :=
  State.shapingOrder_congr fun g => State.takeSweep_lead _ sw g

end

theorem State.shapeSweep_of {s : State} {sw : Sweep} {during : List (List MidEvent)} {y : Shaping}
    (h : (s.takeSweep sw).dealAll during = y) : s.shapeSweep sw during =
      (y.state, { sw with slots := y.slots, governor := y.state.unit.nodeAddress.setWidth 8 }) := by
  simp only [State.shapeSweep, h]

/-- R7: a frame that is ready at OUT-OUT begins its sending. -/
theorem State.sendOut (s : State) (bytes : List Byte) :
    (s.onLane .outbound (fun l => l.ready bytes)).startPort .outbound =
      { s with outLane := { s.outLane with hand := some (.sending bytes) } } :=
  State.startPort_outbound_ready (b := bytes) rfl

theorem State.outboundSweep_of {s : State} {w : Waiting} {during : List (List MidEvent)} {u : State} {out : Sweep}
    (hnext : s.outLane.next? = some w) (hsweep : isSweep w.bytes = true)
    (hshaped : (s.onLane .outbound Lane.dropHead).shapeSweep (readSweep w.bytes) during = (u, out)) :
    s.outboundSweep during = { u with outLane := { u.outLane with hand := some (.sending (sweepBytes out)) } } := by
  rw [← State.sendOut]
  simp only [State.outboundSweep, hnext, hsweep, if_true, hshaped]

/-- R5, R8, R26: the outbound lane takes, shapes and sends the sweep at its head. -/
theorem State.outboundSweep_eq {s : State} {w : Waiting} {rest : List Waiting} {y : Shaping}
    {during : List (List MidEvent)} (hhand : s.outLane.hand = none) (hwait : s.outLane.waiting = w :: rest)
    (hby : w.bypassed = false) (hkind : frameKind w.bytes = 0xA1)
    (hy : s.shapedSweep rest (readSweep w.bytes) during = y) :
    s.outboundSweep during = { y.state with
      outLane := { s.outLane with
        waiting := rest
        hand := some (.sending (sweepBytes { readSweep w.bytes with
          governor := s.unit.nodeAddress.setWidth 8
          slots := y.slots })) } } := by
  have hnext : s.outLane.next? = some w := Lane.next?_eq_some.2 ⟨hhand, by rw [hwait]; rfl, hby⟩
  have htaken : s.onLane .outbound Lane.dropHead = s.withWaiting rest := by
    show { s with outLane := s.outLane.dropHead } = _
    rw [Lane.dropHead, hwait]
    rfl
  have hlane : y.state.outLane = _ := hy ▸ s.shapedSweep_outLane rest (readSweep w.bytes) during
  have hunit : y.state.unit = _ := hy ▸ s.shapedSweep_unit rest (readSweep w.bytes) during
  have hshaped : (s.onLane .outbound Lane.dropHead).shapeSweep (readSweep w.bytes) during = (y.state, _) :=
    State.shapeSweep_of (htaken ▸ hy)
  rw [State.outboundSweep_of hnext (isSweep_iff.2 hkind) hshaped, hlane, ← hunit]

end Sys2Proof.Machine
end

section
/-! PROOF. The outbound sweep as it is sent, and what stage 7 writes and keeps (R26, R34, R47). -/

namespace Sys2Proof.Machine

open Sys2Proof

/-! ### What taking a sweep leaves of the other blocks -/

/-- The blocks that only events during the shaping change. -/
def State.sameBeside (s t : State) : Prop :=
  t.retLane = s.retLane ∧ t.strain = s.strain ∧ t.crack = s.crack ∧ t.sets = s.sets ∧ t.watch = s.watch ∧
    t.service = s.service

theorem StageKeeps.sameBeside {s t : State} (h : StageKeeps s t) : s.sameBeside t :=
  ⟨h.retLane, h.strain, h.crack, h.sets, h.watch, h.service⟩

theorem State.sameBeside.trans {s t u : State} (h : s.sameBeside t) (k : t.sameBeside u) : s.sameBeside u := by
  obtain ⟨hret, hstrain, hcrack, hsets, hwatch, hservice⟩ := h
  obtain ⟨kret, kstrain, kcrack, ksets, kwatch, kservice⟩ := k
  exact ⟨kret.trans hret, kstrain.trans hstrain, kcrack.trans hcrack, ksets.trans hsets, kwatch.trans hwatch,
    kservice.trans hservice⟩

theorem State.sweepInHand_beside (s : State) (sw : Sweep) : s.sameBeside (s.sweepInHand sw).state :=
  ⟨rfl, rfl, rfl, rfl, rfl, rfl⟩

theorem State.takeSweep_beside (s : State) (sw : Sweep) : s.sameBeside (s.takeSweep sw).state := by
  rw [State.takeSweep_eq]
  exact s.reportsTaken_keeps.sameBeside.trans (State.sweepInHand_beside _ sw)

theorem State.withWaiting_beside (s : State) (rest : List Waiting) : s.sameBeside (s.withWaiting rest) :=
  ⟨rfl, rfl, rfl, rfl, rfl, rfl⟩

/-- With no event during the shaping of a sweep these blocks stand. -/
theorem State.shapedSweep_beside (s : State) (rest : List Waiting) (sw : Sweep) :
    s.sameBeside (s.shapedSweep rest sw []).state :=
  ((s.withWaiting_beside rest).trans (State.takeSweep_beside _ sw)).trans (Shaping.dealAll_keeps _).state.sameBeside

/-! ### All the groups by their places in the order -/

theorem Shaping.dealAll_places {x : Shaping} {during : List (List MidEvent)} {order : List Group} {acts : List Actuator}
    (horder : x.state.shapingOrder = order) (hacts : (Shaping.dealGroups order during x).state.unassigned = acts) :
    x.dealAll during = acts.foldl Shaping.writeNone
      ((order.zipIdx.foldl (Shaping.dealAt during) x).meet (during.drop (5 * order.length)).flatten) := by
  have hplaces := Shaping.dealGroups_zipIdx during order 0 x
  rw [Nat.mul_zero, List.drop_zero, Nat.zero_add] at hplaces
  rw [← hplaces, ← hacts, ← horder]
  rfl

theorem State.shapedSweep_places (s : State) (rest : List Waiting) (sw : Sweep) (during : List (List MidEvent)) :
    s.shapedSweep rest sw during = s.unassigned.foldl Shaping.writeNone
      ((s.shapingOrder.zipIdx.foldl (Shaping.dealAt during) ((s.withWaiting rest).takeSweep sw)).meet
        (during.drop (5 * s.shapingOrder.length)).flatten) := by
  refine Shaping.dealAll_places (s.shapedSweep_order rest sw) (State.unassigned_congr fun a => ?_)
  have hdeals := Shaping.Deals.dealGroups (State.takeSweep_offs (s.withWaiting rest) sw) s.shapingOrder during
  rw [hdeals.worked.group, State.takeSweep_group]
  rfl

/-! ### Writing and keeping outputs (R47) -/

/-- Where a SETPOINT role stands does not depend on the crack channels. -/
theorem present?_setpoint (c d : Vector CrackChannel 64) (map : List Binding) (slots : List Slot) (a : Actuator) :
    present? c map slots (.setpoint a) = present? d map slots (.setpoint a) := rfl

theorem Shaping.setpoint?_congr {x y : Shaping} (hmap : y.state.slotMap = x.state.slotMap)
    (hreceived : y.received = x.received) (a : Actuator) : y.setpoint? a = x.setpoint? a := by
  rw [Shaping.setpoint?, Shaping.setpoint?, hmap, hreceived]
  exact present?_setpoint _ _ _ _ _

theorem Shaping.writeSlot_of_present {x : Shaping} {o : Output} {i : Nat} {sl : Slot}
    (h : x.setpoint? o.act = some (i, sl)) :
    (x.writeSlot o).slots = putSlot x.slots i (sl.rewrite kindSetpoint o.quality (intWord o.value)) := by
  simp only [Shaping.writeSlot, h]

theorem Shaping.writeSlot_of_absent {x : Shaping} {o : Output} (h : x.setpoint? o.act = none) : x.writeSlot o = x := by
  simp only [Shaping.writeSlot, h]

/-- R47: the slot at the place of the actuator's SETPOINT role after a write. -/
theorem Shaping.writeSlot_at {x : Shaping} {o : Output} {i : Nat} {sl : Slot} (hlen : x.slots.length = x.received.length)
    (h : x.setpoint? o.act = some (i, sl)) :
    (x.writeSlot o).slots[i]? = some (sl.rewrite kindSetpoint o.quality (intWord o.value)) := by
  obtain ⟨hat, -, -⟩ := present?_some h
  obtain ⟨hi, -⟩ := List.getElem?_eq_some_iff.1 hat
  rw [Shaping.writeSlot_of_present h]
  exact List.getElem?_set_self (hlen ▸ hi)

/-- R47: the slot at any other place. -/
theorem Shaping.writeSlot_other {x : Shaping} {o : Output} {i : Nat} (h : ∀ sl : Slot, x.setpoint? o.act ≠ some (i, sl)) :
    (x.writeSlot o).slots[i]? = x.slots[i]? := by
  cases hp : x.setpoint? o.act with
  | none => rw [Shaping.writeSlot_of_absent hp]
  | some p =>
    obtain ⟨j, sl⟩ := p
    rw [Shaping.writeSlot_of_present hp]
    refine List.getElem?_set_ne ?_
    rintro rfl
    exact h sl hp

/-- In a map in order two SETPOINT roles do not stand at one place. -/
theorem Shaping.setpoint?_place_ne {x : Shaping} (hmap : mapWf x.state.slotMap) {a b : Actuator} (hne : b ≠ a) {i : Nat}
    {sl sm : Slot} (h : x.setpoint? a = some (i, sl)) : x.setpoint? b ≠ some (i, sm) := by
  intro hb
  refine present?_place_ne hmap (q := .setpoint b) (r := .setpoint a) (fun e => hne ?_) h (sm := sl) ?_
  · exact Role.setpoint.inj e
  · obtain ⟨hat, -, -⟩ := present?_some h
    obtain ⟨hbt, -, -⟩ := present?_some hb
    rwa [Option.some.inj (hat.symm.trans hbt)]

section
variable {x : Shaping}

theorem Shaping.keep_setpoint? (o : Output) (a : Actuator) : (x.keep o).setpoint? a = x.setpoint? a :=
  Shaping.setpoint?_congr (x.keep_keeps o).state.slotMap (x.keep_keeps o).received a

theorem Shaping.keep_output_same (o : Output) : (x.keep o).state.output o.act =
    { x.state.output o.act with kept := some o.value, lastQuality := o.quality } := by
  rw [Shaping.keep, State.output_onOutput, if_pos rfl]

theorem Shaping.keep_output_of_ne {o : Output} {a : Actuator} (h : o.act ≠ a) :
    (x.keep o).state.output a = x.state.output a := by
  rw [Shaping.keep, State.output_onOutput, if_neg (Ne.symm h)]

theorem Shaping.keep_slots (o : Output) : (x.keep o).slots = (x.writeSlot o).slots := rfl

theorem Shaping.foldl_keep_output_of_ne {outs : List Output} {a : Actuator} (h : ∀ o ∈ outs, o.act ≠ a) :
    (outs.foldl Shaping.keep x).state.output a = x.state.output a := by
  induction outs generalizing x with
  | nil => rfl
  | cons o outs ih =>
    rw [List.foldl_cons, ih fun p hp => h p (List.mem_cons_of_mem _ hp),
      Shaping.keep_output_of_ne (h o List.mem_cons_self)]

theorem Shaping.foldl_keep_slots_of_ne {outs : List Output} {i : Nat}
    (h : ∀ o ∈ outs, ∀ sl : Slot, x.setpoint? o.act ≠ some (i, sl)) :
    (outs.foldl Shaping.keep x).slots[i]? = x.slots[i]? := by
  induction outs generalizing x with
  | nil => rfl
  | cons o outs ih =>
    rw [List.foldl_cons, ih fun p hp sl => by rw [Shaping.keep_setpoint?]; exact h p (List.mem_cons_of_mem _ hp) sl,
      Shaping.keep_slots, Shaping.writeSlot_other (h o List.mem_cons_self)]

/-- R47: the output and the slot of an actuator that the outputs name once. -/
theorem Shaping.foldl_keep_mem {outs : List Output} (hmap : mapWf x.state.slotMap)
    (hlen : x.slots.length = x.received.length) (hnodup : (outs.map (fun o => o.act)).Nodup) {o : Output} (ho : o ∈ outs) :
    (outs.foldl Shaping.keep x).state.output o.act =
        { x.state.output o.act with kept := some o.value, lastQuality := o.quality } ∧
      ∀ (i : Nat) (sl : Slot), x.setpoint? o.act = some (i, sl) → (outs.foldl Shaping.keep x).slots[i]? =
        some (sl.rewrite kindSetpoint o.quality (intWord o.value)) := by
  induction outs generalizing x with
  | nil => cases ho
  | cons p outs ih =>
    have hkeeps := x.keep_keeps p
    obtain ⟨hp, hrest⟩ := List.nodup_cons.1 hnodup
    have hother (q : Output) (hq : q ∈ outs) : q.act ≠ p.act := fun e => hp (List.mem_map.2 ⟨q, hq, e⟩)
    rw [List.foldl_cons]
    rcases List.mem_cons.1 ho with rfl | hmem
    · refine ⟨?_, fun i sl hsl => ?_⟩
      · rw [Shaping.foldl_keep_output_of_ne hother, Shaping.keep_output_same]
      · rw [Shaping.foldl_keep_slots_of_ne fun q hq sm => ?_, Shaping.keep_slots, Shaping.writeSlot_at hlen hsl]
        rw [Shaping.keep_setpoint?]
        exact Shaping.setpoint?_place_ne hmap (hother q hq) hsl
    · obtain ⟨hout, hslots⟩ := ih (x := x.keep p) (by rwa [hkeeps.state.slotMap])
        (by rw [hkeeps.length, hkeeps.received, hlen]) hrest hmem
      rw [Shaping.keep_output_of_ne (hother o hmem).symm] at hout
      exact ⟨hout, fun i sl hsl => hslots i sl (by rwa [Shaping.keep_setpoint?])⟩

theorem Shaping.stage7_of_ne_off {g : Group} {outs : List Output} (h : x.working.entry g ≠ .off) :
    x.stage7 g outs = (outs.foldl Shaping.keep x).markShaped g := by
  rw [Shaping.stage7_eq, Shaping.stage7Writes, if_neg h]

theorem Shaping.foldl_keep_working (outs : List Output) : (outs.foldl Shaping.keep x).working = x.working := by
  induction outs generalizing x with
  | nil => rfl
  | cons o outs ih =>
    rw [List.foldl_cons, ih]
    exact Shaping.writeSlot_working x o

theorem Shaping.foldl_keep_shape (outs : List Output) (g : Group) :
    (outs.foldl Shaping.keep x).state.shape g = x.state.shape g := by
  induction outs generalizing x with
  | nil => rfl
  | cons o outs ih =>
    rw [List.foldl_cons, ih]
    rfl

end

end Sys2Proof.Machine

namespace Sys2Proof
open Sys2Proof.Machine

/-- Settles O19, by the groups dealt with in their order and the outputs kept one by one. -/
theorem outboundSweepSent : Obligations.OutboundSweepSent := by
  unfold Obligations.OutboundSweepSent
  constructor
  · intro s w rest during hhand hwait hby hkind sw taken order deal dealt y t
    have horder : s.shapingOrder = order := State.shapingOrder_eq s
    have hdeal : Shaping.dealAt during = deal := by
      funext x gi
      simp only [Shaping.dealAt, Shaping.dealGroup, getD_drop]
      rfl
    have htaken : (s.withWaiting rest).takeSweep sw = taken := rfl
    have hy : s.shapedSweep rest sw during = y := by
      rw [State.shapedSweep_places, horder, hdeal, State.unassigned_eq, htaken]
    have hdeals : Shaping.Deals taken y := hy ▸ s.shapedSweep_deals rest sw during
    have hworking (g : Group) : taken.working.entry g = _ := State.takeSweep_working (s.withWaiting rest) sw g
    refine ⟨?_, hworking, State.takeSweep_cycling (s.withWaiting rest) sw, State.takeSweep_received _ sw,
      State.takeSweep_slots _ sw, State.takeSweep_number _ sw, ?_, fun i a b ha hb => ?_, ?_, fun g hlead hst => ?_, ?_, ?_,
      ?_, ?_, fun hnil => ?_⟩
    · exact congrArg Host.Outcome.next (State.outboundSweep_eq hhand hwait hby hkind hy)
    · rw [hdeals.length]
      exact congrArg List.length (State.takeSweep_slots _ sw)
    · have hslots : taken.slots = sw.slots := State.takeSweep_slots _ sw
      have hreceived : taken.received = sw.slots := State.takeSweep_received _ sw
      have hmap : taken.state.slotMap = s.slotMap := State.takeSweep_slotMap _ sw
      rcases hdeals.slots i with hsame | ⟨sl, kind, q, v, hsl, hrole, hnew⟩
      · rw [hsame, hslots, ha] at hb
        cases hb
        exact ⟨rfl, fun _ => rfl⟩
      · rw [hreceived, ha] at hsl
        cases hsl
        rw [hb] at hnew
        cases hnew
        rw [hmap] at hrole
        exact ⟨rfl, fun hnone => absurd hnone hrole⟩
    · exact hdeals.worked.lastTaken.trans (State.takeSweep_lastTaken _ sw)
    · have hsettled : ¬(s.groupState g).isSummed := by
        unfold GroupState.isSummed
        rcases hst with h | h | h <;> rw [h] <;> decide
      have hstate : taken.working.entry g = s.groupState g := by
        rw [hworking]
        exact if_neg fun h => hsettled (.inl h.1)
      have hmem : g ∈ taken.state.shapingOrder := by
        rw [← htaken, State.shapedSweep_order]
        exact State.mem_shapingOrder.2 (.inl hlead)
      have hlast := Shaping.dealAll_lastShaped hmem (by rwa [hstate]) during
      rw [hstate] at hlast
      rw [← hlast]
      exact congrArg (fun z : Shaping => (z.state.shape g).lastShaped) hy.symm
    · exact (congrArg (fun z : Shaping => z.state.pending) hy).symm.trans (s.shapedSweep_pending rest sw during)
    · exact (congrArg (fun z : Shaping => z.state.unit) hy).symm.trans (s.shapedSweep_unit rest sw during)
    · exact (congrArg (fun z : Shaping => z.state.slotMap) hy).symm.trans (s.shapedSweep_slotMap rest sw during)
    · exact (congrArg (fun z : Shaping => z.state.shapes) hy).symm.trans (s.shapedSweep_shapes rest sw during)
    · rw [hnil] at hy
      have hbeside := s.shapedSweep_beside rest sw
      rw [hy] at hbeside
      exact hbeside
  · intro x g outs hoff hmap hlen hnodup y
    have hy : y = (outs.foldl Shaping.keep x).markShaped g := Shaping.stage7_of_ne_off hoff
    rw [hy]
    refine ⟨fun o ho => Shaping.foldl_keep_mem hmap hlen hnodup ho, fun a ha => Shaping.foldl_keep_output_of_ne ha,
      fun i hi => Shaping.foldl_keep_slots_of_ne hi, ?_⟩
    rw [Shaping.markShaped_shape, Shaping.foldl_keep_shape, Shaping.foldl_keep_working]

end Sys2Proof
end

section
/-! PROOF. The outbound sweep of a part with every group OFF (R34). -/

namespace Sys2Proof.Machine

open Sys2Proof

/-! ### Actuators without an output -/

/-- R34: no output is kept for an actuator, and its SETPOINT slot, where present, is written NONE and 0. -/
structure Shaping.Cleared (x : Shaping) (a : Actuator) : Prop where
  kept : (x.state.output a).kept = none
  quality : (x.state.output a).lastQuality = .none
  slot : ∀ (i : Nat) (sl : Slot), x.setpoint? a = some (i, sl) →
    x.slots[i]? = some (sl.rewrite kindSetpoint .none (intWord 0))

/-- Every group is worked on in OFF, and none cycles. -/
structure Shaping.AllOff (x : Shaping) : Prop where
  working : ∀ g : Group, x.working.entry g = .off
  cycling : ∀ g : Group, x.cycling.entry g = false
  length : x.slots.length = x.received.length

theorem Shaping.Deals.allOff {x y : Shaping} (h : x.Deals y) (hx : x.AllOff) : y.AllOff where
  working g := (h.working g).2 (hx.working g)
  cycling g := by rw [h.cycling, hx.cycling]
  length := by rw [h.length, h.received, hx.length]

/-- What is without an output stays so. -/
def Shaping.KeepsCleared (x y : Shaping) : Prop := ∀ a : Actuator, x.Cleared a → y.Cleared a

section
variable {x y z : Shaping}

theorem Shaping.KeepsCleared.refl (x : Shaping) : x.KeepsCleared x := fun _ h => h

theorem Shaping.KeepsCleared.trans (h : x.KeepsCleared y) (k : y.KeepsCleared z) : x.KeepsCleared z :=
  fun a ha => k a (h a ha)

theorem Shaping.KeepsCleared.of (hslots : y.slots = x.slots) (hreceived : y.received = x.received)
    (hmap : y.state.slotMap = x.state.slotMap) (hacts : y.state.shaper.acts = x.state.shaper.acts) :
    x.KeepsCleared y := by
  intro a ha
  have houtput : y.state.output a = x.state.output a :=
    congrArg (fun v : Vector ActuatorOutput 16 => v.entry a) hacts
  refine ⟨by rw [houtput, ha.kept], by rw [houtput, ha.quality], fun i sl hsl => ?_⟩
  rw [hslots]
  exact ha.slot i sl ((Shaping.setpoint?_congr hmap hreceived a).symm.trans hsl)

theorem Shaping.KeepsCleared.ofState {t : State} (hmap : t.slotMap = x.state.slotMap)
    (hacts : t.shaper.acts = x.state.shaper.acts) : x.KeepsCleared { x with state := t } := .of rfl rfl hmap hacts

theorem Shaping.KeepsCleared.rearmSum (x : Shaping) (g : Group) : x.KeepsCleared (x.rearmSum g) := .ofState rfl rfl

theorem Shaping.KeepsCleared.markShaped (x : Shaping) (g : Group) : x.KeepsCleared (x.markShaped g) := .ofState rfl rfl

theorem Shaping.KeepsCleared.recordCycling (x : Shaping) (g : Group) : x.KeepsCleared (x.recordCycling g) :=
  .ofState rfl rfl

theorem Shaping.KeepsCleared.stage8 (x : Shaping) (g : Group) : x.KeepsCleared (x.stage8 g) := by
  have hmap := (x.stage8_keeps g).state.slotMap
  rcases x.stage8_cases g with e | ⟨t, e, hshaper⟩ <;> rw [e] at hmap ⊢
  · exact .refl x
  · exact .ofState hmap (congrArg Shaper.acts hshaper)

theorem Shaping.KeepsCleared.meet (x : Shaping) (es : List MidEvent) : x.KeepsCleared (x.meet es) := by
  have hmid := MidKeeps.foldl MidKeeps.meet es x.state
  exact .ofState hmid.slotMap (congrArg Shaper.acts hmid.shaper)

theorem Shaping.writeNone_setpoint? (a b : Actuator) : (x.writeNone a).setpoint? b = x.setpoint? b :=
  Shaping.setpoint?_congr (x.writeNone_keeps a).state.slotMap (x.writeNone_keeps a).received b

theorem Shaping.writeNone_output (a b : Actuator) : (x.writeNone a).state.output b =
    if b = a then { x.state.output b with kept := none, lastQuality := .none } else x.state.output b := by
  rw [Shaping.writeNone, State.output_onOutput]

/-- R34: an actuator whose output is written NONE. -/
theorem Shaping.writeNone_cleared (hlen : x.slots.length = x.received.length) (a : Actuator) :
    (x.writeNone a).Cleared a := by
  have hout := x.writeNone_output a a
  rw [if_pos rfl] at hout
  refine ⟨by rw [hout], by rw [hout], fun i sl hsl => ?_⟩
  rw [Shaping.writeNone_setpoint?] at hsl
  exact Shaping.writeSlot_at (o := { act := a, value := 0, quality := .none }) hlen hsl

/-- What is written at a place for one actuator without an output is what is written there for any other. -/
theorem Shaping.KeepsCleared.writeNone (hlen : x.slots.length = x.received.length) (a : Actuator) :
    x.KeepsCleared (x.writeNone a) := by
  intro b hb
  by_cases hba : b = a
  · subst hba
    exact Shaping.writeNone_cleared hlen b
  · have hout := x.writeNone_output a b
    rw [if_neg hba] at hout
    refine ⟨by rw [hout, hb.kept], by rw [hout, hb.quality], fun i sl hsl => ?_⟩
    rw [Shaping.writeNone_setpoint?] at hsl
    by_cases hplace : ∃ sm : Slot, x.setpoint? a = some (i, sm)
    · obtain ⟨sm, hsm⟩ := hplace
      have hsame : sm = sl :=
        Option.some.inj ((present?_some hsm).1.symm.trans (present?_some hsl).1)
      subst hsame
      exact Shaping.writeSlot_at (o := { act := a, value := 0, quality := .none }) hlen hsm
    · rw [← hb.slot i sl hsl]
      exact Shaping.writeSlot_other (o := { act := a, value := 0, quality := .none }) fun sm hsm => hplace ⟨sm, hsm⟩

theorem Shaping.foldl_writeNone_cleared {l : List Actuator} (hlen : x.slots.length = x.received.length) :
    x.KeepsCleared (l.foldl Shaping.writeNone x) ∧ ∀ a ∈ l, (l.foldl Shaping.writeNone x).Cleared a := by
  induction l generalizing x with
  | nil => exact ⟨.refl x, nofun⟩
  | cons b l ih =>
    have hkeeps := x.writeNone_keeps b
    obtain ⟨hkept, hcleared⟩ := ih (x := x.writeNone b) (by rw [hkeeps.length, hkeeps.received, hlen])
    refine ⟨(Shaping.KeepsCleared.writeNone hlen b).trans hkept, fun a ha => ?_⟩
    rcases List.mem_cons.1 ha with rfl | hmem
    · exact hkept _ (Shaping.writeNone_cleared hlen _)
    · exact hcleared a hmem

/-! ### A group worked on in OFF -/

theorem Shaping.stage2_of_not_cycling {g : Group} (hc : x.cycling.entry g = false) (mid : List MidEvent) :
    x.stage2 g mid = { x.meet mid with state := (x.meet mid).state.swap g } := by
  have hseq : x.sequence g mid = x.meet mid :=
    Shaping.sequence_of_not_counts (fun h => by rw [h.2.1] at hc; cases hc) mid
  have hswap : (x.meet mid).swapPage g = { x.meet mid with state := (x.meet mid).state.swap g } := by
    rw [Shaping.swapPage_eq, if_pos (.inl hc)]
  have htell (z : Shaping) (hz : z.cycling.entry g = false) : z.tellTurning g = z :=
    if_neg (by rw [hz]; decide)
  rw [Shaping.stage2, hseq, hswap]
  exact htell _ hc

theorem State.swap_slotMap (s : State) (g : Group) : (s.swap g).slotMap = s.slotMap := by
  cases hp : (s.pages.entry g).pendingPage with
  | none => rw [State.swap_of_none hp]
  | some p => rw [State.swap_of_some hp, State.onPages_slotMap]

theorem Shaping.KeepsCleared.stage2 {g : Group} (hc : x.cycling.entry g = false) (mid : List MidEvent) :
    x.KeepsCleared (x.stage2 g mid) := by
  rw [Shaping.stage2_of_not_cycling hc]
  exact (Shaping.KeepsCleared.meet x mid).trans
    (.ofState (State.swap_slotMap _ g) (congrArg Shaper.acts (State.swap_shaper _ g)))

theorem Shaping.stage3to6_off {g : Group} (h : x.working.entry g = .off) : x.stage3to6 g = (x.rearmSum g, []) := by
  simp only [Shaping.stage3to6, h]

/-- The work on a group in OFF as far as its outputs are written: its actuators are left without an output. -/
theorem Shaping.AllOff.dealtWrites (hx : x.AllOff) (g : Group) (during : List (List MidEvent)) :
    x.KeepsCleared (x.dealtWrites g during) ∧
      ∀ a : Actuator, (x.state.actuator a).group = some g → (x.dealtWrites g during).Cleared a := by
  have hmet : Shaping.Deals x (x.meet (during.getD 0 [])) := .meet x _
  have hstage1 : (x.meet (during.getD 0 [])).stage1 g = x.meet (during.getD 0 []) :=
    Shaping.stage1_of_not_cycling (hx.cycling g)
  have hpaged : Shaping.Deals x (((x.meet (during.getD 0 [])).stage2 g (during.getD 1 [])).meet (during.getD 2 [])) :=
    (hmet.trans (.stage2 _ g _)).trans (.meet _ _)
  have hkept : x.KeepsCleared (((x.meet (during.getD 0 [])).stage2 g (during.getD 1 [])).meet (during.getD 2 [])) :=
    ((Shaping.KeepsCleared.meet x _).trans (.stage2 ((hmet.allOff hx).cycling g) _)).trans (.meet _ _)
  have hwrites : x.dealtWrites g during =
      ((((((x.meet (during.getD 0 [])).stage2 g (during.getD 1 [])).meet (during.getD 2 [])).rearmSum g).meet
        (during.getD 3 [])).stage7Writes g []) := by
    rw [Shaping.dealtWrites, hstage1, Shaping.stage3to6_off ((hpaged.allOff hx).working g)]
  generalize ((x.meet (during.getD 0 [])).stage2 g (during.getD 1 [])).meet (during.getD 2 []) = y at *
  have hready : Shaping.Deals x ((y.rearmSum g).meet (during.getD 3 [])) :=
    (hpaged.trans (.rearmSum y g)).trans (.meet _ _)
  have hreadyKept : x.KeepsCleared ((y.rearmSum g).meet (during.getD 3 [])) :=
    (hkept.trans (.rearmSum y g)).trans (.meet _ _)
  generalize (y.rearmSum g).meet (during.getD 3 []) = z at *
  have hfold : x.dealtWrites g during = (z.state.members g).foldl Shaping.writeNone z := by
    rw [hwrites, Shaping.stage7Writes, if_pos ((hready.allOff hx).working g)]
  obtain ⟨hkeeps, hclears⟩ := Shaping.foldl_writeNone_cleared (l := z.state.members g) (hready.allOff hx).length
  rw [hfold]
  refine ⟨hreadyKept.trans hkeeps, fun a ha => hclears a (State.mem_members.2 ?_)⟩
  rw [hready.worked.group, ha]

theorem Shaping.AllOff.dealGroup (hx : x.AllOff) (g : Group) (during : List (List MidEvent)) :
    x.KeepsCleared (x.dealGroup g during) ∧
      ∀ a : Actuator, (x.state.actuator a).group = some g → (x.dealGroup g during).Cleared a := by
  obtain ⟨hkeeps, hclears⟩ := hx.dealtWrites g during
  have hafter : (x.dealtWrites g during).KeepsCleared (x.dealGroup g during) := by
    rw [Shaping.dealGroup_eq]
    exact ((Shaping.KeepsCleared.markShaped _ g).trans (.meet _ _)).trans ((Shaping.KeepsCleared.stage8 _ g).trans
      (.recordCycling _ g))
  exact ⟨hkeeps.trans hafter, fun a ha => hafter a (hclears a ha)⟩

theorem Shaping.AllOff.dealGroups (hx : x.AllOff) (hoffs : x.Offs) (gs : List Group) (during : List (List MidEvent)) :
    x.KeepsCleared (Shaping.dealGroups gs during x) ∧ ∀ (a : Actuator) (g : Group), g ∈ gs →
      (x.state.actuator a).group = some g → (Shaping.dealGroups gs during x).Cleared a := by
  induction gs generalizing during x with
  | nil => exact ⟨.meet x _, fun a g hg => absurd hg List.not_mem_nil⟩
  | cons h gs ih =>
    have hdeals := Shaping.Deals.dealGroup hoffs h during
    obtain ⟨hkeeps, hclears⟩ := hx.dealGroup h during
    obtain ⟨hrest, hrestClears⟩ := ih (hdeals.allOff hx) (hdeals.offs hoffs) (during.drop 5)
    refine ⟨hkeeps.trans hrest, fun a g hg ha => ?_⟩
    rcases List.mem_cons.1 hg with rfl | hmem
    · exact hrest a (hclears a ha)
    · exact hrestClears a g hmem (by rw [hdeals.worked.group, ha])

/-- R34: with every group OFF every actuator is left without an output. -/
theorem Shaping.AllOff.dealAll (hx : x.AllOff) (hoffs : x.Offs) (hall : ∀ g : Group, g ∈ x.state.shapingOrder)
    (during : List (List MidEvent)) (a : Actuator) : (x.dealAll during).Cleared a := by
  have hdeals := Shaping.Deals.dealGroups hoffs x.state.shapingOrder during
  obtain ⟨-, hclears⟩ := hx.dealGroups hoffs x.state.shapingOrder during
  obtain ⟨hkeeps, hunassigned⟩ := Shaping.foldl_writeNone_cleared
    (l := (Shaping.dealGroups x.state.shapingOrder during x).state.unassigned) (hdeals.allOff hx).length
  cases hg : (x.state.actuator a).group with
  | some g => exact hkeeps a (hclears a g (hall g) hg)
  | none =>
    refine hunassigned a (List.mem_filter.2 ⟨List.mem_ofFn.2 ⟨a, rfl⟩, ?_⟩)
    rw [hdeals.worked.group, hg]
    rfl

theorem Shaping.AllOff.not_summed (hx : x.AllOff) (g : Group) : ¬(x.working.entry g).isSummed := by
  rw [hx.working g]
  rintro (e | e | e) <;> cases e

/-- R25, R30: with every group OFF each was last shaped in OFF, and no phase moves. -/
theorem Shaping.AllOff.dealAll_shape (hx : x.AllOff) {g : Group} (hg : g ∈ x.state.shapingOrder)
    (during : List (List MidEvent)) : ((x.dealAll during).state.shape g).lastShaped = some .off ∧
      ((x.dealAll during).state.shape g).theta = (x.state.shape g).theta := by
  have hlast := Shaping.dealAll_lastShaped hg (hx.not_summed g) during
  rw [hx.working g] at hlast
  exact ⟨hlast, (Shaping.Stays.dealAll x during).theta (hx.cycling g)⟩

theorem Shaping.AllOff.dealAll_groupState (hx : x.AllOff) (hoffs : x.Offs) (during : List (List MidEvent)) (g : Group) :
    (x.dealAll during).state.groupState g = .off := by
  have hdeals := Shaping.Deals.dealAll hoffs during
  exact (hdeals.offs hoffs g).1 ((hdeals.allOff hx).working g)

end

theorem State.takeSweep_allOff {s : State} (hoff : ∀ g : Group, s.groupState g = .off) (sw : Sweep) :
    (s.takeSweep sw).AllOff := by
  have hworking (g : Group) : (s.takeSweep sw).working.entry g = .off := by
    rw [State.takeSweep_working, hoff, if_neg fun h => by cases h.1]
  refine ⟨hworking, fun g => Bool.eq_false_iff.2 fun h => ?_, by rw [State.takeSweep_slots, State.takeSweep_received]⟩
  have hrun := ((State.takeSweep_cycling s sw g).1 h).1
  rw [hworking] at hrun
  cases hrun

end Sys2Proof.Machine

namespace Sys2Proof
open Sys2Proof.Machine

/-- Settles O20, by the actuators that each group in OFF, and the end of the sweep, leave without an output. -/
theorem offSweepWritesNone : Obligations.OffSweepWritesNone := by
  unfold Obligations.OffSweepWritesNone
  intro s w rest during hhand hwait hby hkind hoff hleads
  have hall : (s.withWaiting rest).takeSweep (readSweep w.bytes) |>.AllOff :=
    State.takeSweep_allOff (s := s.withWaiting rest) hoff _
  have hoffs : Shaping.Offs ((s.withWaiting rest).takeSweep (readSweep w.bytes)) := State.takeSweep_offs _ _
  have horder (g : Group) : g ∈ ((s.withWaiting rest).takeSweep (readSweep w.bytes)).state.shapingOrder := by
    rw [State.shapedSweep_order, State.mem_shapingOrder]
    cases hlead : s.lead g with
    | none => exact .inl rfl
    | some h => exact .inr ⟨h, hleads g h hlead, rfl⟩
  have hcleared (a : Actuator) : (s.shapedSweep rest (readSweep w.bytes) during).Cleared a :=
    hall.dealAll hoffs horder during a
  have hshape (g : Group) : ((s.shapedSweep rest (readSweep w.bytes) during).state.shape g).lastShaped = some .off ∧
      ((s.shapedSweep rest (readSweep w.bytes) during).state.shape g).theta = _ :=
    hall.dealAll_shape (horder g) during
  have hgroup (g : Group) : (s.shapedSweep rest (readSweep w.bytes) during).state.groupState g = .off :=
    hall.dealAll_groupState hoffs during g
  have hmap := s.shapedSweep_slotMap rest (readSweep w.bytes) during
  have hreceived : (s.shapedSweep rest (readSweep w.bytes) during).received = (readSweep w.bytes).slots :=
    (s.shapedSweep_deals rest (readSweep w.bytes) during).received.trans (State.takeSweep_received _ _)
  have hsent := State.outboundSweep_eq hhand hwait hby hkind (rfl : s.shapedSweep rest (readSweep w.bytes) during = _)
  generalize s.shapedSweep rest (readSweep w.bytes) during = y at *
  refine ⟨_, y.slots, congrArg Host.Outcome.next hsent, rfl, fun a i sl hsl => ?_,
    fun a => ⟨(hcleared a).kept, (hcleared a).quality⟩, fun g => ⟨hgroup g, (hshape g).1, ?_⟩⟩
  · have hat : y.setpoint? a = some (i, sl) := by
      rw [Shaping.setpoint?, hmap, hreceived]
      exact hsl
    exact (hcleared a).slot i sl hat
  · have htaken := congrArg GroupShape.theta (State.takeSweep_shape (s.withWaiting rest) (readSweep w.bytes) g)
    exact (hshape g).2.trans htaken

end Sys2Proof
end

section
/-! PROOF. The conditioning of strain values, and the slots that a return sweep leaves with (R99 to R103, R20). -/

namespace Sys2Proof.Machine

open Sys2Proof

/-! ### Slots rewritten in their places -/

theorem roleAt?_ne_none {map : List Binding} {r : Role} {n : Half} (h : slotOf? map r = some n) :
    roleAt? map n ≠ none := by
  intro hnone
  obtain ⟨b, hb, hn⟩ := Option.map_eq_some_iff.1 h
  exact roleAt?_eq_none.mp hnone b (List.mem_of_find?_eq_some hb) hn

/-- R12: every slot stands in its place with its number, and every slot without a role is unchanged. -/
structure SlotsFit (map : List Binding) (a b : List Slot) : Prop where
  length : b.length = a.length
  fits : ∀ (i : Nat) (x y : Slot), a[i]? = some x → b[i]? = some y →
    y.number = x.number ∧ (roleAt? map x.number = none → y = x)

section
variable {map : List Binding} {a b c : List Slot}

theorem SlotsFit.refl (a : List Slot) : SlotsFit map a a := by
  refine ⟨rfl, fun i x y hx hy => ?_⟩
  rw [hx] at hy
  cases hy
  exact ⟨rfl, fun _ => rfl⟩

theorem SlotsFit.trans (h : SlotsFit map a b) (k : SlotsFit map b c) : SlotsFit map a c := by
  refine ⟨k.length.trans h.length, fun i x z hx hz => ?_⟩
  have hi : i < b.length := by
    rw [h.length]
    exact (List.getElem?_eq_some_iff.1 hx).1
  have hy : b[i]? = some b[i] := List.getElem?_eq_getElem hi
  obtain ⟨hxy, hsame⟩ := h.fits i x _ hx hy
  obtain ⟨hyz, hsame'⟩ := k.fits i _ z hy hz
  exact ⟨hyz.trans hxy, fun hnone => (hsame' (by rwa [hxy])).trans (hsame hnone)⟩

theorem SlotsFit.putSlot {i : Nat} {sl new : Slot} (h : SlotsFit map a b) (hat : a[i]? = some sl)
    (hnumber : new.number = sl.number) (hrole : roleAt? map sl.number ≠ none) : SlotsFit map a (putSlot b i new) := by
  refine ⟨by rw [Machine.putSlot, List.length_set, h.length], fun j x y hx hy => ?_⟩
  rw [Machine.putSlot, List.getElem?_set] at hy
  split_ifs at hy with hij hlt
  · subst hij
    rw [hat] at hx
    cases hx
    cases hy
    exact ⟨hnumber, fun hnone => absurd hnone hrole⟩
  · exact h.fits j x y hx hy

theorem SlotsFit.foldl {ws : List (Nat × Slot)} (h : SlotsFit map a b)
    (hws : ∀ w ∈ ws, ∃ sl : Slot, a[w.1]? = some sl ∧ w.2.number = sl.number ∧ roleAt? map sl.number ≠ none) :
    SlotsFit map a (ws.foldl (fun slots w => Machine.putSlot slots w.1 w.2) b) := by
  induction ws generalizing b with
  | nil => exact h
  | cons w ws ih =>
    obtain ⟨sl, hat, hnumber, hrole⟩ := hws w List.mem_cons_self
    exact ih (h.putSlot hat hnumber hrole) fun v hv => hws v (List.mem_cons_of_mem _ hv)

/-- Writes at distinct places within the list are found there, and every other place stands. -/
theorem foldl_putSlot_getElem? {ws : List (Nat × Slot)} (hnodup : (ws.map Prod.fst).Nodup) :
    (∀ w ∈ ws, w.1 < a.length → (ws.foldl (fun slots w => putSlot slots w.1 w.2) a)[w.1]? = some w.2) ∧
    ∀ i : Nat, i ∉ ws.map Prod.fst → (ws.foldl (fun slots w => putSlot slots w.1 w.2) a)[i]? = a[i]? := by
  induction ws generalizing a with
  | nil => exact ⟨nofun, fun _ _ => rfl⟩
  | cons v ws ih =>
    obtain ⟨hv, hrest⟩ := List.nodup_cons.1 hnodup
    obtain ⟨hin, hout⟩ := ih (a := putSlot a v.1 v.2) hrest
    rw [List.foldl_cons]
    refine ⟨fun w hw hlt => ?_, fun i hi => ?_⟩
    · rcases List.mem_cons.1 hw with rfl | hmem
      · rw [hout _ hv]
        exact List.getElem?_set_self hlt
      · exact hin w hmem (by rwa [putSlot, List.length_set])
    · rw [List.map_cons, List.mem_cons, not_or] at hi
      rw [hout i hi.2]
      exact List.getElem?_set_ne (Ne.symm hi.1)

end

/-! ### Values (R99 to R102) -/

theorem saturate_eq (e : Int) (q : Quality) : saturate e q =
    if 50000 < e then (50000, .saturated) else if e < -50000 then (-50000, .saturated) else (e, q) := rfl

/-- R102: the result of the last step lies within the bound. -/
theorem saturate_bounds {e x : Int} {q r : Quality} (h : saturate e q = (x, r)) :
    -50000 ≤ x ∧ x ≤ 50000 ∧ (r = q ∨ r = .saturated) := by
  rw [saturate_eq] at h
  split_ifs at h with hhigh hlow <;> obtain ⟨rfl, rfl⟩ := Prod.mk.inj h
  · exact ⟨by decide, by decide, .inr rfl⟩
  · exact ⟨by decide, by decide, .inr rfl⟩
  · exact ⟨by omega, by omega, .inl rfl⟩

theorem saturate_of_within {e : Int} (h : e.natAbs ≤ 50000) (q : Quality) : saturate e q = (e, q) := by
  rw [saturate_eq, if_neg (by omega), if_neg (by omega)]

theorem saturate_of_beyond {e : Int} (h : ¬e.natAbs ≤ 50000) (q : Quality) : (saturate e q).2 = .saturated := by
  rw [saturate_eq]
  split_ifs
  · rfl
  · rfl
  · omega

section
variable {rd : Reading} {s : State} {c : Fin 256}

theorem Reading.raw?_of_absent (h : rd.slot? s.crack (.strain c) = none) : rd.raw? s c = none := by
  simp only [Reading.raw?, h]

theorem Reading.raw?_of_present {i : Nat} {sl : Slot} (h : rd.slot? s.crack (.strain c) = some (i, sl)) :
    rd.raw? s c = if qualityOf sl.quality = .good then some sl.value.toInt else none := by
  simp only [Reading.raw?, h]

theorem Reading.conditioned_of_no_cal (h : (s.strain.entry c).cal = none) : rd.conditioned s c = none := by
  simp only [Reading.conditioned, h]

theorem Reading.conditioned_of_no_raw (h : rd.raw? s c = none) : rd.conditioned s c = none := by
  cases hcal : (s.strain.entry c).cal <;> simp only [Reading.conditioned, h, hcal]

theorem Reading.firstPass_of_no_cal (h : (s.strain.entry c).cal = none) : rd.firstPass s c = none := by
  simp only [Reading.firstPass, h]

theorem Reading.firstPass_of_no_raw (h : rd.raw? s c = none) : rd.firstPass s c = none := by
  cases hcal : (s.strain.entry c).cal <;> simp only [Reading.firstPass, h, hcal]

section
variable {cal : Calibration} {r : Int}

theorem Reading.firstPass_eq (hcal : (s.strain.entry c).cal = some cal) (hraw : rd.raw? s c = some r)
    (hcomp : cal.comp = none) : rd.firstPass s c = some (saturate (conditionRaw cal r) .good) := by
  simp only [Reading.firstPass, hcal, hraw, hcomp, Option.isNone_none, if_true]

theorem Reading.conditioned_alone (hcal : (s.strain.entry c).cal = some cal) (hraw : rd.raw? s c = some r)
    (hcomp : cal.comp = none) : rd.conditioned s c = some (saturate (conditionRaw cal r) .good) := by
  simp only [Reading.conditioned, hcal, hraw, hcomp]

theorem Reading.conditioned_compensated {d : Fin 256} {ec : Int} (hcal : (s.strain.entry c).cal = some cal)
    (hraw : rd.raw? s c = some r) (hcomp : cal.comp = some d) (hd : rd.compensation s d = some ec) :
    rd.conditioned s c = some (saturate (conditionRaw cal r - ec) .good) := by
  simp only [Reading.conditioned, hcal, hraw, hcomp, hd]

theorem Reading.conditioned_uncompensated {d : Fin 256} (hcal : (s.strain.entry c).cal = some cal)
    (hraw : rd.raw? s c = some r) (hcomp : cal.comp = some d) (hd : rd.compensation s d = none) :
    rd.conditioned s c = some (saturate (conditionRaw cal r) .uncomp) := by
  simp only [Reading.conditioned, hcal, hraw, hcomp, hd]

end

theorem Reading.compensation_of_no_pass (h : rd.firstPass s c = none) : rd.compensation s c = none := by
  simp only [Reading.compensation, h]

/-- R101: a result of the first pass compensates where it came out GOOD, which is where it lies within the bound. -/
theorem Reading.compensation_of_pass {e : Int} (h : rd.firstPass s c = some (saturate e .good)) :
    rd.compensation s c = if e.natAbs ≤ 50000 then some e else none := by
  split_ifs with hwithin
  · rw [saturate_of_within hwithin] at h
    simp only [Reading.compensation, h]
  · have hbeyond := saturate_of_beyond hwithin .good
    generalize saturate e .good = v at h hbeyond
    obtain ⟨x, q⟩ := v
    obtain rfl : q = .saturated := hbeyond
    simp only [Reading.compensation, h]

/-- R99: a channel that is conditioned has a record and a slot of quality GOOD. -/
theorem Reading.conditioned_eq_some {e : Int} {q : Quality} (h : rd.conditioned s c = some (e, q)) :
    ∃ (x : Int) (q' : Quality), saturate x q' = (e, q) ∧ (q' = .good ∨ q' = .uncomp) ∧ (s.strain.entry c).cal ≠ none ∧
      ∃ r : Int, rd.raw? s c = some r := by
  cases hcal : (s.strain.entry c).cal with
  | none => rw [Reading.conditioned_of_no_cal hcal] at h; cases h
  | some cal =>
    cases hraw : rd.raw? s c with
    | none => rw [Reading.conditioned_of_no_raw hraw] at h; cases h
    | some r =>
      have hsome := Option.some_ne_none cal
      cases hcomp : cal.comp with
      | none =>
        rw [Reading.conditioned_alone hcal hraw hcomp] at h
        exact ⟨_, _, Option.some.inj h, .inl rfl, hsome, r, rfl⟩
      | some d =>
        cases hd : rd.compensation s d with
        | none =>
          rw [Reading.conditioned_uncompensated hcal hraw hcomp hd] at h
          exact ⟨_, _, Option.some.inj h, .inr rfl, hsome, r, rfl⟩
        | some ec =>
          rw [Reading.conditioned_compensated hcal hraw hcomp hd] at h
          exact ⟨_, _, Option.some.inj h, .inl rfl, hsome, r, rfl⟩

/-! ### The slots rewritten (R103) -/

theorem Reading.strainSlot?_of_absent (h : rd.slot? s.crack (.strain c) = none) : rd.strainSlot? s c = none := by
  simp only [Reading.strainSlot?, h]

theorem Reading.strainSlot?_of_not_good {i : Nat} {sl : Slot} (h : rd.slot? s.crack (.strain c) = some (i, sl))
    (hq : qualityOf sl.quality ≠ .good) : rd.strainSlot? s c = none := by
  simp only [Reading.strainSlot?, h, if_neg hq]

theorem Reading.strainSlot?_of_uncal {i : Nat} {sl : Slot} (h : rd.slot? s.crack (.strain c) = some (i, sl))
    (hq : qualityOf sl.quality = .good) (hc : rd.conditioned s c = none) :
    rd.strainSlot? s c = some (i, sl.rewrite kindStrainRaw .uncal sl.value) := by
  simp only [Reading.strainSlot?, h, if_pos hq, hc]

theorem Reading.strainSlot?_of_conditioned {i : Nat} {sl : Slot} {e : Int} {q : Quality}
    (h : rd.slot? s.crack (.strain c) = some (i, sl)) (hq : qualityOf sl.quality = .good)
    (hc : rd.conditioned s c = some (e, q)) : rd.strainSlot? s c = some (i, sl.rewrite kindStrainUe q (intWord e)) := by
  simp only [Reading.strainSlot?, h, if_pos hq, hc]

/-- A slot is rewritten in the place where the channel's role stands, with its number. -/
theorem Reading.strainSlot?_eq_some {w : Nat × Slot} (h : rd.strainSlot? s c = some w) :
    ∃ sl : Slot, rd.slot? s.crack (.strain c) = some (w.1, sl) ∧ w.2.number = sl.number := by
  cases hslot : rd.slot? s.crack (.strain c) with
  | none => rw [Reading.strainSlot?_of_absent hslot] at h; cases h
  | some p =>
    obtain ⟨i, sl⟩ := p
    by_cases hq : qualityOf sl.quality = .good
    · cases hc : rd.conditioned s c with
      | none =>
        rw [Reading.strainSlot?_of_uncal hslot hq hc] at h
        cases h
        exact ⟨sl, rfl, rfl⟩
      | some v =>
        rw [Reading.strainSlot?_of_conditioned (e := v.1) (q := v.2) hslot hq hc] at h
        cases h
        exact ⟨sl, rfl, rfl⟩
    · rw [Reading.strainSlot?_of_not_good hslot hq] at h
      cases h

end

section
variable (rd : Reading) (s : State)

/-- R103: the slots that the conditioner rewrites, with their places. -/
def Reading.strainWrites : List (Nat × Slot) := allStrain.filterMap (rd.strainSlot? s)

theorem Reading.mem_strainWrites {w : Nat × Slot} :
    w ∈ rd.strainWrites s ↔ ∃ c : Fin 256, rd.strainSlot? s c = some w := by
  have hall (c : Fin 256) : c ∈ allStrain := List.mem_ofFn.2 ⟨c, rfl⟩
  simp only [Reading.strainWrites, List.mem_filterMap, hall, true_and]

theorem Reading.conditionedSlots_eq : rd.conditionedSlots s =
    (rd.strainWrites s).foldl (fun slots w => putSlot slots w.1 w.2) rd.slots := rfl

theorem Reading.conditionedSlots_fit : SlotsFit rd.map rd.slots (rd.conditionedSlots s) := by
  rw [Reading.conditionedSlots_eq]
  refine (SlotsFit.refl _).foldl fun w hw => ?_
  obtain ⟨c, hc⟩ := (rd.mem_strainWrites s).1 hw
  obtain ⟨sl, hslot, hnumber⟩ := Reading.strainSlot?_eq_some hc
  obtain ⟨hat, hmap, -⟩ := present?_some hslot
  exact ⟨sl, hat, hnumber, roleAt?_ne_none hmap⟩

variable {rd s}

/-- In a map in order no two channels are rewritten in one place. -/
theorem Reading.strainSlot?_place {c d : Fin 256} {v w : Nat × Slot} (hmap : mapWf rd.map)
    (hc : rd.strainSlot? s c = some v) (hd : rd.strainSlot? s d = some w) (hplace : v.1 = w.1) : c = d := by
  obtain ⟨sl, hslot, -⟩ := Reading.strainSlot?_eq_some hc
  obtain ⟨sm, hslot', -⟩ := Reading.strainSlot?_eq_some hd
  rw [← hplace] at hslot'
  have hsame : sl = sm := Option.some.inj ((present?_some hslot).1.symm.trans (present?_some hslot').1)
  subst hsame
  by_contra hne
  exact present?_place_ne hmap (q := .strain c) (r := .strain d) (fun e => hne (Role.strain.inj e)) hslot' hslot

theorem Reading.strainWrites_nodup (hmap : mapWf rd.map) : ((rd.strainWrites s).map Prod.fst).Nodup := by
  have hpairs : allStrain.Pairwise fun c d => ∀ v, rd.strainSlot? s c = some v → ∀ w, rd.strainSlot? s d = some w →
      v.1 ≠ w.1 :=
    (List.nodup_ofFn_ofInjective Function.injective_id).imp fun hne v hv w hw hplace =>
      hne (Reading.strainSlot?_place hmap hv hw hplace)
  exact List.pairwise_map.2 (List.pairwise_filterMap.2 hpairs)

theorem Reading.conditionedSlots_at {c : Fin 256} {w : Nat × Slot} (hmap : mapWf rd.map)
    (hc : rd.strainSlot? s c = some w) : (rd.conditionedSlots s)[w.1]? = some w.2 := by
  obtain ⟨sl, hslot, -⟩ := Reading.strainSlot?_eq_some hc
  obtain ⟨hlt, -⟩ := List.getElem?_eq_some_iff.1 (present?_some hslot).1
  exact (foldl_putSlot_getElem? (Reading.strainWrites_nodup hmap)).1 w ((rd.mem_strainWrites s).2 ⟨c, hc⟩) hlt

theorem Reading.conditionedSlots_other {i : Nat} (hmap : mapWf rd.map)
    (hi : ∀ (c : Fin 256) (w : Nat × Slot), rd.strainSlot? s c = some w → w.1 ≠ i) :
    (rd.conditionedSlots s)[i]? = rd.slots[i]? := by
  refine (foldl_putSlot_getElem? (Reading.strainWrites_nodup hmap)).2 i fun hmem => ?_
  obtain ⟨w, hw, rfl⟩ := List.mem_map.1 hmem
  obtain ⟨c, hc⟩ := (rd.mem_strainWrites s).1 hw
  exact hi c w hc rfl

end

end Sys2Proof.Machine

namespace Sys2Proof
open Sys2Proof.Machine

/-- Settles O41, by the rounding, the passes over the channels, and the places where slots are rewritten. -/
theorem conditioningRounds : Obligations.ConditioningRounds := by
  unfold Obligations.ConditioningRounds
  refine ⟨fun cal r => roundDiv_spec _ (by decide : 0 < 65536), fun rd s c e q h => ?_, ?_, ?_⟩
  · obtain ⟨x, q', hx, hq', -, -⟩ := Reading.conditioned_eq_some h
    obtain ⟨hlow, hhigh, hq⟩ := saturate_bounds hx
    refine ⟨hlow, hhigh, ?_⟩
    rcases hq with rfl | rfl
    · exact hq'.imp_right .inl
    · exact .inr (.inr rfl)
  · intro rd s c slot stopped
    refine ⟨?_, ?_⟩
    · rintro (hslot | hcal | ⟨i, sl, hslot, hq⟩)
      · exact Reading.conditioned_of_no_raw (Reading.raw?_of_absent hslot)
      · exact Reading.conditioned_of_no_cal hcal
      · exact Reading.conditioned_of_no_raw ((Reading.raw?_of_present hslot).trans (if_neg hq))
    · intro cal i sl hcal hslot hgood e
      have hraw : rd.raw? s c = some sl.value.toInt := (Reading.raw?_of_present hslot).trans (if_pos hgood)
      refine ⟨fun hcomp => Reading.conditioned_alone hcal hraw hcomp, fun d hcomp hd => ?_, ?_⟩
      · refine Reading.conditioned_uncompensated hcal hraw hcomp (Reading.compensation_of_no_pass ?_)
        rcases hd with hslot' | hcal'
        · exact Reading.firstPass_of_no_raw (Reading.raw?_of_absent hslot')
        · exact Reading.firstPass_of_no_cal hcal'
      · intro d cd j sd hcomp hcd hfirst hsd ed
        by_cases hsdq : qualityOf sd.quality = .good
        · have hrawd : rd.raw? s d = some sd.value.toInt := (Reading.raw?_of_present hsd).trans (if_pos hsdq)
          have hpass := Reading.compensation_of_pass (Reading.firstPass_eq hcd hrawd hfirst)
          by_cases hwithin : ed.natAbs ≤ 50000
          · rw [if_pos ⟨hsdq, hwithin⟩]
            exact Reading.conditioned_compensated hcal hraw hcomp (hpass.trans (if_pos hwithin))
          · rw [if_neg fun h => hwithin h.2]
            exact Reading.conditioned_uncompensated hcal hraw hcomp (hpass.trans (if_neg hwithin))
        · rw [if_neg fun h => hsdq h.1]
          have hrawd : rd.raw? s d = none := (Reading.raw?_of_present hsd).trans (if_neg hsdq)
          exact Reading.conditioned_uncompensated hcal hraw hcomp
            (Reading.compensation_of_no_pass (Reading.firstPass_of_no_raw hrawd))
  · intro rd s hmap slot out
    have hother (i : Nat) (h : ∀ (c : Fin 256) (sl : Slot), slot c = some (i, sl) → rd.strainSlot? s c = none) :
        out[i]? = rd.slots[i]? := by
      refine Reading.conditionedSlots_other hmap fun c w hw hi => ?_
      obtain ⟨sl, hslot, -⟩ := Reading.strainSlot?_eq_some hw
      rw [h c sl (hi ▸ hslot)] at hw
      cases hw
    refine ⟨(rd.conditionedSlots_fit s).length, fun c i sl hslot => ⟨fun hq => ?_, fun hq hcal => ?_,
      fun e q hc => ?_⟩, fun i hi => hother i fun c sl hc => absurd hc (hi c sl)⟩
    · rw [hother i fun d sm hd => ?_]
      · exact (present?_some hslot).1
      · have hsame : sm = sl := Option.some.inj ((present?_some hd).1.symm.trans (present?_some hslot).1)
        exact Reading.strainSlot?_of_not_good hd (hsame ▸ hq)
    · exact Reading.conditionedSlots_at hmap
        (Reading.strainSlot?_of_uncal hslot hq (Reading.conditioned_of_no_cal hcal))
    · obtain ⟨-, -, -, -, -, r, hraw⟩ := Reading.conditioned_eq_some hc
      have hq : qualityOf sl.quality = .good := by
        by_contra hq
        rw [Reading.raw?_of_present hslot, if_neg hq] at hraw
        cases hraw
      exact Reading.conditionedSlots_at hmap (Reading.strainSlot?_of_conditioned hslot hq hc)

end Sys2Proof
end

section
/-! PROOF. The course of a return sweep through the four blocks, and where it stops (R6, R8, R20, R132). -/

namespace Sys2Proof.Machine

open Sys2Proof

/-! ### One step of the course -/

section
variable {s : State} {sw : Sweep} {map : List Binding} {b t : ReturnBlock} {owed : List Raise}

/-- A state whose return lane holds a sweep in processing, as the course finds it. -/
theorem State.inReturn_self (h : s.retLane.hand = some (.processing sw map b owed)) :
    s.inReturn (.processing sw map b owed) = s := by
  have hlane : { s.retLane with hand := some (.processing sw map b owed) } = s.retLane := by rw [← h]
  show { s with retLane := { s.retLane with hand := some (.processing sw map b owed) } } = s
  rw [hlane]

theorem State.returnStep_within (h : blockPlace b ≤ blockPlace t) :
    (s.inReturn (.processing sw map b owed)).returnStep t = (s.raisedAll owed).beginBlock sw map b := by
  have hin : (s.inReturn (.processing sw map b owed)).retLane.hand = some (.processing sw map b owed) := rfl
  have hraised : (s.inReturn (.processing sw map b owed)).raisedAll owed =
      (s.raisedAll owed).inReturn (.processing sw map b owed) := State.raisedAll_onReturn owed s _
  have hstep : (s.inReturn (.processing sw map b owed)).returnStep t =
      (s.inReturn (.processing sw map b owed)).finishBlock.beginBlock sw map b := if_pos h
  rw [hstep, State.finishBlock_processing hin, hraised, State.beginBlock_inReturn, State.beginBlock_inReturn]

theorem State.returnStep_beyond (h : ¬blockPlace b ≤ blockPlace t) :
    (s.inReturn (.processing sw map b owed)).returnStep t = s.inReturn (.processing sw map b owed) := if_neg h

/-- R132: the block whose raises are owed hands over as many of them as the reach says, or all. -/
theorem State.handOver_owed {raises : Option Nat} (h : blockPlace b = blockPlace t + 1) :
    (s.inReturn (.processing sw map b owed)).handOver ⟨t, raises⟩ =
      (s.raisedAll (owed.take (raises.getD owed.length))).inReturn
        (.processing sw map b (owed.drop (raises.getD owed.length))) := by
  have hstep : (s.inReturn (.processing sw map b owed)).handOver ⟨t, raises⟩ =
      ((s.inReturn (.processing sw map b owed)).raisedAll (owed.take (raises.getD owed.length))).inReturn
        (.processing sw map b (owed.drop (raises.getD owed.length))) := if_pos h
  have hraised : (s.inReturn (.processing sw map b owed)).raisedAll (owed.take (raises.getD owed.length)) =
      (s.raisedAll (owed.take (raises.getD owed.length))).inReturn (.processing sw map b owed) :=
    State.raisedAll_onReturn _ s _
  rw [hstep, hraised]
  rfl

theorem State.handOver_all (h : blockPlace b = blockPlace t + 1) :
    (s.inReturn (.processing sw map b owed)).handOver ⟨t, none⟩ =
      (s.raisedAll owed).inReturn (.processing sw map b []) := by
  rw [State.handOver_owed h, Option.getD_none, List.take_length, List.drop_length]

theorem State.handOver_zero (h : blockPlace b = blockPlace t + 1) :
    (s.inReturn (.processing sw map b owed)).handOver ⟨t, some 0⟩ = s.inReturn (.processing sw map b owed) :=
  State.handOver_owed h

/-- The hand in which the status writer leaves its sweep. -/
def State.writtenHand (s : State) (map : List Binding) (sw : Sweep) : Hand :=
  if s.service.replySending = true then .ready (sweepBytes (s.statusWriter map sw))
  else .sending (sweepBytes (s.statusWriter map sw))

theorem State.beginBlock_writer (s : State) (sw : Sweep) (map : List Binding) :
    s.beginBlock sw map .statusWriter = s.inReturn (s.writtenHand map sw) := by
  have hbegin : s.beginBlock sw map .statusWriter =
      (s.inReturn (.ready (sweepBytes (s.statusWriter map sw)))).startPort .ret := rfl
  rw [hbegin, State.writtenHand]
  split_ifs with hreply
  · exact State.startPort_ret_of_reply hreply
  · exact State.startPort_ret_ready (s := s.inReturn _) rfl (Bool.eq_false_iff.2 hreply)

theorem State.returnStep_written (s : State) (map : List Binding) (sw : Sweep) (t : ReturnBlock) :
    (s.inReturn (s.writtenHand map sw)).returnStep t = s.inReturn (s.writtenHand map sw) := by
  unfold State.writtenHand
  split_ifs <;> rfl

theorem State.handOver_written (s : State) (map : List Binding) (sw : Sweep) (through : ReturnReach) :
    (s.inReturn (s.writtenHand map sw)).handOver through = s.inReturn (s.writtenHand map sw) := by
  unfold State.writtenHand
  split_ifs <;> rfl

/-- The status words, and with them the slots written, show nothing of the return lane. -/
theorem State.writtenHand_onReturn (s : State) (f : Lane → Lane) (map : List Binding) (sw : Sweep) :
    (s.onLane .ret f).writtenHand map sw = s.writtenHand map sw := rfl

end

/-! ### The whole course -/

/-- R6: the steps of the course as far as a block. -/
def State.returnSteps (s : State) (t : ReturnBlock) : State :=
  (((s.returnStep t).returnStep t).returnStep t).returnStep t

theorem State.returnSweep_eq (s : State) (through : ReturnReach) :
    s.returnSweep through = (s.takeReturn.returnSteps through.block).handOver through := rfl

section
variable {s : State} {sw : Sweep} {map : List Binding}

theorem State.returnSteps_beyond {b t : ReturnBlock} {owed : List Raise} (h : ¬blockPlace b ≤ blockPlace t) :
    (s.inReturn (.processing sw map b owed)).returnSteps t = s.inReturn (.processing sw map b owed) := by
  simp only [State.returnSteps, State.returnStep_beyond h]

/-- With one block to go the first step does its work, and the others find nothing to do. -/
theorem State.returnSteps_last {owed : List Raise} {t : ReturnBlock} {u : State} {sw' : Sweep} {b : ReturnBlock}
    {owed' : List Raise} (hbegin : (s.raisedAll owed).beginBlock sw map t = u.inReturn (.processing sw' map b owed'))
    (hb : ¬blockPlace b ≤ blockPlace t) : (s.inReturn (.processing sw map t owed)).returnSteps t =
      u.inReturn (.processing sw' map b owed') := by
  simp only [State.returnSteps, State.returnStep_within le_rfl, hbegin, State.returnStep_beyond hb]

theorem State.returnSteps_feedback (owed : List Raise) :
    (s.inReturn (.processing sw map .feedbackIntake owed)).returnSteps .feedbackIntake =
      ((s.raisedAll owed).feedbackNoted { map := map, slots := sw.slots }).inReturn
        (.processing sw map .strainBlock
          (Reading.driveRaises { map := map, slots := sw.slots } (s.raisedAll owed) sw.number)) :=
  State.returnSteps_last rfl (by decide)

theorem State.returnSteps_strain (owed : List Raise) :
    (s.inReturn (.processing sw map .strainBlock owed)).returnSteps .strainBlock =
      ((s.raisedAll owed).strainJudged { map := map, slots := sw.slots }).inReturn
        (.processing { sw with slots := Reading.conditionedSlots { map := map, slots := sw.slots } (s.raisedAll owed) }
          map .crackWatch (Reading.strainRaises { map := map, slots := sw.slots } (s.raisedAll owed) sw.number)) :=
  State.returnSteps_last rfl (by decide)

theorem State.returnSteps_crack (owed : List Raise) :
    (s.inReturn (.processing sw map .crackWatch owed)).returnSteps .crackWatch =
      ((s.raisedAll owed).crackEvaluated { map := map, slots := sw.slots }).inReturn
        (.processing sw map .statusWriter
          (Reading.watchRaises { map := map, slots := sw.slots } (s.raisedAll owed) sw.number)) :=
  State.returnSteps_last rfl (by decide)

theorem State.returnSteps_writer (owed : List Raise) :
    (s.inReturn (.processing sw map .statusWriter owed)).returnSteps .statusWriter =
      (s.raisedAll owed).inReturn ((s.raisedAll owed).writtenHand map sw) := by
  simp only [State.returnSteps, State.returnStep_within le_rfl, State.beginBlock_writer, State.returnStep_written]

/-! ### From the first block to where the sweep stops -/

variable {fed : State} {judged : State × Sweep} {watched : State}

/-- A step beyond the block at work, once its raises are handed over, begins the next block on what they leave. -/
theorem State.returnStep_feedback {t : ReturnBlock} (hfed : s.feedbackIntake map sw = fed) :
    ((s.inReturn (.processing sw map .feedbackIntake [])).returnStep t) =
      s.beginBlock sw map .feedbackIntake ∧
    (1 ≤ blockPlace t → (s.beginBlock sw map .feedbackIntake).returnStep t = fed.beginBlock sw map .strainBlock) :=
  ⟨State.returnStep_within (Nat.zero_le _), fun h => hfed ▸ State.returnStep_within h⟩

theorem State.returnStep_strain {t : ReturnBlock} (hjudged : fed.strainBlock map sw = judged) (h : 2 ≤ blockPlace t) :
    (fed.beginBlock sw map .strainBlock).returnStep t = judged.1.beginBlock judged.2 map .crackWatch :=
  hjudged ▸ State.returnStep_within h

theorem State.course_feedback (hfed : s.feedbackIntake map sw = fed) :
    ((s.inReturn (.processing sw map .feedbackIntake [])).returnSteps .feedbackIntake).handOver ⟨.feedbackIntake, none⟩ =
      fed.inReturn (.processing sw map .strainBlock []) := by
  rw [State.returnSteps_feedback, State.handOver_all rfl, ← hfed]
  rfl

theorem State.course_strain (hfed : s.feedbackIntake map sw = fed) (hjudged : fed.strainBlock map sw = judged) :
    ((s.inReturn (.processing sw map .feedbackIntake [])).returnSteps .strainBlock).handOver ⟨.strainBlock, none⟩ =
      judged.1.inReturn (.processing judged.2 map .crackWatch []) := by
  obtain ⟨hfirst, hsecond⟩ := State.returnStep_feedback (t := .strainBlock) hfed
  have hbegin : fed.beginBlock sw map .strainBlock = (fed.strainJudged { map := map, slots := sw.slots }).inReturn
      (.processing { sw with slots := Reading.conditionedSlots { map := map, slots := sw.slots } fed } map .crackWatch
        (Reading.strainRaises { map := map, slots := sw.slots } fed sw.number)) := rfl
  rw [State.returnSteps, hfirst, hsecond le_rfl, hbegin, State.returnStep_beyond (by decide),
    State.returnStep_beyond (by decide), State.handOver_all rfl, ← hjudged]
  rfl

theorem State.course_crack (hfed : s.feedbackIntake map sw = fed) (hjudged : fed.strainBlock map sw = judged)
    (hwatched : judged.1.crackWatch map judged.2 = watched) :
    ((s.inReturn (.processing sw map .feedbackIntake [])).returnSteps .crackWatch).handOver ⟨.crackWatch, none⟩ =
      watched.inReturn (.processing judged.2 map .statusWriter []) := by
  obtain ⟨hfirst, hsecond⟩ := State.returnStep_feedback (t := .crackWatch) hfed
  have hbegin : judged.1.beginBlock judged.2 map .crackWatch =
      (judged.1.crackEvaluated { map := map, slots := judged.2.slots }).inReturn (.processing judged.2 map .statusWriter
        (Reading.watchRaises { map := map, slots := judged.2.slots } judged.1 judged.2.number)) := rfl
  rw [State.returnSteps, hfirst, hsecond (by decide), State.returnStep_strain hjudged le_rfl, hbegin,
    State.returnStep_beyond (by decide), State.handOver_all rfl, ← hwatched]
  rfl

theorem State.course_writer (hfed : s.feedbackIntake map sw = fed) (hjudged : fed.strainBlock map sw = judged)
    (hwatched : judged.1.crackWatch map judged.2 = watched) :
    ((s.inReturn (.processing sw map .feedbackIntake [])).returnSteps .statusWriter).handOver ⟨.statusWriter, none⟩ =
      watched.inReturn (watched.writtenHand map judged.2) := by
  obtain ⟨hfirst, hsecond⟩ := State.returnStep_feedback (t := .statusWriter) hfed
  have hlast : (judged.1.beginBlock judged.2 map .crackWatch).returnStep .statusWriter =
      watched.beginBlock judged.2 map .statusWriter := hwatched ▸ State.returnStep_within le_rfl
  rw [State.returnSteps, hfirst, hsecond (by decide), State.returnStep_strain hjudged (by decide), hlast,
    State.beginBlock_writer, State.handOver_written]

end

/-! ### Taking the sweep -/

theorem State.takeReturn_of_hand {s : State} {h : Hand} (hhand : s.retLane.hand = some h) : s.takeReturn = s := by
  have hnext : s.retLane.next? = none := by
    cases hn : s.retLane.next? with
    | none => rfl
    | some w =>
      rw [(Lane.next?_eq_some.1 hn).1] at hhand
      cases hhand
  simp only [State.takeReturn, hnext]

section
variable {s : State} {w : Waiting} {rest : List Waiting}

theorem State.takeReturn_sweep (hhand : s.retLane.hand = none) (hwait : s.retLane.waiting = w :: rest)
    (hby : w.bypassed = false) (hkind : frameKind w.bytes = 0xA1) : s.takeReturn =
      (s.onLane .ret Lane.dropHead).inReturn (.processing (readSweep w.bytes) w.map .feedbackIntake []) := by
  have hnext : s.retLane.next? = some w := Lane.next?_eq_some.2 ⟨hhand, by rw [hwait]; rfl, hby⟩
  simp only [State.takeReturn, hnext, isSweep_iff.2 hkind, if_true]

end

section
variable {s : State} {f : Lane → Lane} {map : List Binding} {sw : Sweep}

theorem State.feedbackIntake_onReturn :
    (s.onLane .ret f).feedbackIntake map sw = (s.feedbackIntake map sw).onLane .ret f :=
  State.raisedAll_onReturn _ (s.feedbackNoted _) f

theorem State.strainBlock_onReturn : (s.onLane .ret f).strainBlock map sw =
    ((s.strainBlock map sw).1.onLane .ret f, (s.strainBlock map sw).2) :=
  Prod.ext (State.raisedAll_onReturn _ (s.strainJudged _) f) rfl

theorem State.crackWatch_onReturn : (s.onLane .ret f).crackWatch map sw = (s.crackWatch map sw).onLane .ret f :=
  State.raisedAll_onReturn _ (s.crackEvaluated _) f

end

/-- The state with a frame in the return lane's hand once the frame at its head has left. -/
theorem State.inReturn_dropHead {u s : State} {w : Waiting} {rest : List Waiting} (hlane : u.retLane = s.retLane)
    (hwait : s.retLane.waiting = w :: rest) (h : Hand) : (u.onLane .ret Lane.dropHead).inReturn h =
      { u with retLane := { s.retLane with waiting := rest, hand := some h } } := by
  show { u with retLane := { u.retLane.dropHead with hand := some h } } = _
  rw [hlane, Lane.dropHead, hwait]
  rfl

/-! ### What the blocks leave (R6, R165) -/

/-- The blocks of the return lane leave the watch and the service handler. -/
theorem State.feedbackIntake_leaves (s : State) (map : List Binding) (sw : Sweep) :
    (s.feedbackIntake map sw).retLane = s.retLane ∧ (s.feedbackIntake map sw).watch = s.watch ∧
      (s.feedbackIntake map sw).service = s.service :=
  ⟨State.raisedAll_retLane (s.feedbackNoted _) _, State.raisedAll_watch (s.feedbackNoted _) _,
    State.raisedAll_service (s.feedbackNoted _) _⟩

theorem State.strainBlock_leaves (s : State) (map : List Binding) (sw : Sweep) :
    (s.strainBlock map sw).1.retLane = s.retLane ∧ (s.strainBlock map sw).1.watch = s.watch ∧
      (s.strainBlock map sw).1.service = s.service :=
  ⟨State.raisedAll_retLane (s.strainJudged _) _, State.raisedAll_watch (s.strainJudged _) _,
    State.raisedAll_service (s.strainJudged _) _⟩

theorem State.crackWatch_leaves (s : State) (map : List Binding) (sw : Sweep) :
    (s.crackWatch map sw).retLane = s.retLane ∧ (s.crackWatch map sw).watch = s.watch ∧
      (s.crackWatch map sw).service = s.service :=
  ⟨State.raisedAll_retLane (s.crackEvaluated _) _, State.raisedAll_watch (s.crackEvaluated _) _,
    State.raisedAll_service (s.crackEvaluated _) _⟩

/-! ### The slots (R12, R20) -/

theorem State.writeStatus_fit (s : State) (map : List Binding) (slots : List Slot) (r : Role) (value : Word) :
    SlotsFit map slots (s.writeStatus map slots r value) := by
  cases hp : present? s.crack map slots r with
  | none =>
    rw [State.writeStatus_of_none value hp]
    exact .refl slots
  | some p =>
    obtain ⟨i, sl⟩ := p
    obtain ⟨hat, hmap, -⟩ := present?_some hp
    rw [State.writeStatus_of_some value hp]
    exact (SlotsFit.refl slots).putSlot hat rfl (roleAt?_ne_none hmap)

theorem State.writeAll_fit (s : State) (map : List Binding) (words : List (Role × Word)) (slots : List Slot) :
    SlotsFit map slots (s.writeAll map words slots) := by
  induction words generalizing slots with
  | nil => exact .refl slots
  | cons rv words ih => exact (s.writeStatus_fit map slots rv.1 rv.2).trans (ih _)

theorem State.statusWriter_fit (s : State) (map : List Binding) (sw : Sweep) :
    SlotsFit map sw.slots (s.statusWriter map sw).slots := by
  rw [State.statusWriter_slots]
  exact s.writeAll_fit map s.statusWords sw.slots

/-! ### The sweep at the head of the return lane -/

section
variable {s fed watched : State} {judged : State × Sweep} {sw : Sweep} {w : Waiting} {rest : List Waiting}

/-- R6: the course of the sweep at the head of the return lane, by where it stops. -/
theorem State.returnSweep_course (hhand : s.retLane.hand = none) (hwait : s.retLane.waiting = w :: rest)
    (hby : w.bypassed = false) (hkind : frameKind w.bytes = 0xA1) (hsw : readSweep w.bytes = sw)
    (hfed : s.feedbackIntake w.map sw = fed) (hjudged : fed.strainBlock w.map sw = judged)
    (hwatched : judged.1.crackWatch w.map judged.2 = watched) :
    s.returnSweep ⟨.feedbackIntake, none⟩ =
      { fed with retLane := { s.retLane with waiting := rest, hand := some (.processing sw w.map .strainBlock []) } } ∧
    s.returnSweep ⟨.strainBlock, none⟩ = { judged.1 with retLane := { s.retLane with
      waiting := rest, hand := some (.processing judged.2 w.map .crackWatch []) } } ∧
    s.returnSweep ⟨.crackWatch, none⟩ = { watched with retLane := { s.retLane with
      waiting := rest, hand := some (.processing judged.2 w.map .statusWriter []) } } ∧
    s.returnSweep ⟨.statusWriter, none⟩ = { watched with retLane := { s.retLane with
      waiting := rest, hand := some (watched.writtenHand w.map judged.2) } } := by
  have htake : s.takeReturn = (s.onLane .ret Lane.dropHead).inReturn (.processing sw w.map .feedbackIntake []) :=
    hsw ▸ State.takeReturn_sweep hhand hwait hby hkind
  have hfedLane : fed.retLane = s.retLane := hfed ▸ (s.feedbackIntake_leaves w.map sw).1
  have hjudgedLane : judged.1.retLane = s.retLane := hjudged ▸ (fed.strainBlock_leaves w.map sw).1.trans hfedLane
  have hwatchedLane : watched.retLane = s.retLane :=
    hwatched ▸ (judged.1.crackWatch_leaves w.map judged.2).1.trans hjudgedLane
  have kfed : (s.onLane .ret Lane.dropHead).feedbackIntake w.map sw = fed.onLane .ret Lane.dropHead :=
    hfed ▸ State.feedbackIntake_onReturn
  have kjudged : (fed.onLane .ret Lane.dropHead).strainBlock w.map sw =
      (judged.1.onLane .ret Lane.dropHead, judged.2) := hjudged ▸ State.strainBlock_onReturn
  have kwatched : (judged.1.onLane .ret Lane.dropHead).crackWatch w.map judged.2 = watched.onLane .ret Lane.dropHead :=
    hwatched ▸ State.crackWatch_onReturn
  refine ⟨?_, ?_, ?_, ?_⟩
  · rw [State.returnSweep_eq, htake, State.course_feedback kfed, State.inReturn_dropHead hfedLane hwait]
  · rw [State.returnSweep_eq, htake, State.course_strain kfed kjudged, State.inReturn_dropHead hjudgedLane hwait]
  · rw [State.returnSweep_eq, htake, State.course_crack kfed kjudged kwatched,
      State.inReturn_dropHead hwatchedLane hwait]
  · rw [State.returnSweep_eq, htake, State.course_writer kfed kjudged kwatched, State.writtenHand_onReturn,
      State.inReturn_dropHead hwatchedLane hwait]

theorem State.returnSweep_keeps (hfed : s.feedbackIntake w.map sw = fed) (hjudged : fed.strainBlock w.map sw = judged)
    (hwatched : judged.1.crackWatch w.map judged.2 = watched) :
    MidKeeps s watched ∧ watched.watch = s.watch ∧ watched.service = s.service := by
  subst hfed hjudged hwatched
  obtain ⟨-, hfedWatch, hfedService⟩ := s.feedbackIntake_leaves w.map sw
  obtain ⟨-, hjudgedWatch, hjudgedService⟩ := (s.feedbackIntake w.map sw).strainBlock_leaves w.map sw
  obtain ⟨-, hwatch, hservice⟩ := ((s.feedbackIntake w.map sw).strainBlock w.map sw).1.crackWatch_leaves w.map
    ((s.feedbackIntake w.map sw).strainBlock w.map sw).2
  exact ⟨((MidKeeps.feedbackIntake s w.map sw).trans (.strainBlock _ w.map sw)).trans (.crackWatch _ w.map _),
    hwatch.trans (hjudgedWatch.trans hfedWatch), hservice.trans (hjudgedService.trans hfedService)⟩

theorem State.returnSweep_slots (hjudged : fed.strainBlock w.map sw = judged) (watched : State) :
    watched.statusWriter w.map judged.2 = { sw with slots := (watched.statusWriter w.map judged.2).slots } ∧
      SlotsFit w.map sw.slots (watched.statusWriter w.map judged.2).slots := by
  subst hjudged
  exact ⟨rfl, (Reading.conditionedSlots_fit { map := w.map, slots := sw.slots } fed).trans
    (watched.statusWriter_fit w.map (fed.strainBlock w.map sw).2)⟩

end

/-! ### A sweep already in processing -/

section
variable {s : State} {sw : Sweep} {map : List Binding} {next : ReturnBlock} {owed : List Raise}

theorem State.inReturn_of_retLane {u : State} (hlane : u.retLane = s.retLane) (h : Hand) :
    u.inReturn h = { u with retLane := { s.retLane with hand := some h } } := by
  show { u with retLane := { u.retLane with hand := some h } } = _
  rw [hlane]

/-- The state once the raises that the block at work owes are handed over, with another hand. -/
theorem State.raisedAll_inReturn (owed : List Raise) (h : Hand) :
    (s.raisedAll owed).inReturn h = { s.raisedAll owed with retLane := { s.retLane with hand := some h } } :=
  State.inReturn_of_retLane (State.raisedAll_retLane s owed) h

theorem State.returnSweep_processing (h : s.retLane.hand = some (.processing sw map next owed)) (through : ReturnReach) :
    s.returnSweep through =
      ((s.inReturn (.processing sw map next owed)).returnSteps through.block).handOver through := by
  rw [State.returnSweep_eq, State.takeReturn_of_hand h, State.inReturn_self h]

theorem State.returnSweep_raises (h : s.retLane.hand = some (.processing sw map next owed)) {b : ReturnBlock}
    (hnext : blockPlace next = blockPlace b + 1) (n : Nat) : s.returnSweep ⟨b, some n⟩ =
      (s.raisedAll (owed.take n)).inReturn (.processing sw map next (owed.drop n)) := by
  rw [State.returnSweep_processing h, State.returnSteps_beyond (show ¬blockPlace next ≤ blockPlace b by omega),
    State.handOver_owed hnext]
  rfl

theorem State.returnSweep_written (h : s.retLane.hand = some (.processing sw map .statusWriter owed))
    (raises : Option Nat) : s.returnSweep ⟨.statusWriter, raises⟩ =
      (s.raisedAll owed).inReturn ((s.raisedAll owed).writtenHand map sw) := by
  rw [State.returnSweep_processing h, State.returnSteps_writer, State.handOver_written]

end

end Sys2Proof.Machine

namespace Sys2Proof
open Sys2Proof.Machine

/-- Settles O21, by the steps of the course as far as each block, and by the hand that each leaves. -/
theorem returnSweepSent : Obligations.ReturnSweepSent := by
  unfold Obligations.ReturnSweepSent
  refine ⟨?_, ?_, fun s => ?_⟩
  · intro s w rest hhand hwait hby hkind sw fed judged watched out holding
    obtain ⟨hfeedback, hstrain, hcrack, hwritten⟩ := State.returnSweep_course (fed := fed) (judged := judged)
      (watched := watched) (sw := sw) hhand hwait hby hkind rfl rfl rfl rfl
    obtain ⟨hmid, hwatch, hservice⟩ := State.returnSweep_keeps (s := s) (fed := fed) (judged := judged)
      (watched := watched) (sw := sw) (w := w) rfl rfl rfl
    obtain ⟨hout, hfit⟩ := State.returnSweep_slots (fed := fed) (judged := judged) (sw := sw) (w := w) rfl watched
    refine ⟨fun hreply => congrArg Host.Outcome.next ?_, fun hreply => congrArg Host.Outcome.next ?_,
      congrArg Host.Outcome.next hfeedback, congrArg Host.Outcome.next hstrain, congrArg Host.Outcome.next hcrack,
      hout, hfit.length, hfit.fits, hmid.pending, hmid.unit, hmid.outLane, hmid.slotMap, hmid.shaper, hmid.pages,
      hmid.shapes, hmid.cycles, hwatch, hservice⟩
    · have hhandOut : watched.writtenHand w.map judged.2 = .sending (sweepBytes out) :=
        if_neg (by rw [hservice, hreply]; decide)
      rw [hhandOut] at hwritten
      exact hwritten
    · have hhandOut : watched.writtenHand w.map judged.2 = .ready (sweepBytes out) := if_pos (by rw [hservice, hreply])
      rw [hhandOut] at hwritten
      exact hwritten
  · intro s sw map next owed hhand rd done holding
    refine ⟨fun b n hnext => congrArg Host.Outcome.next ?_, ?_, ?_, ?_, ?_⟩
    · rw [State.returnSweep_raises hhand hnext, State.raisedAll_inReturn]
    · rintro rfl
      refine congrArg Host.Outcome.next ((State.returnSweep_processing hhand _).trans ?_)
      rw [State.returnSteps_feedback, State.handOver_zero rfl]
      exact State.inReturn_of_retLane (u := done.feedbackNoted rd) (State.raisedAll_retLane s owed) _
    · rintro rfl
      refine congrArg Host.Outcome.next ((State.returnSweep_processing hhand _).trans ?_)
      rw [State.returnSteps_strain, State.handOver_zero rfl]
      exact State.inReturn_of_retLane (u := done.strainJudged rd) (State.raisedAll_retLane s owed) _
    · rintro rfl
      refine congrArg Host.Outcome.next ((State.returnSweep_processing hhand _).trans ?_)
      rw [State.returnSteps_crack, State.handOver_zero rfl]
      exact State.inReturn_of_retLane (u := done.crackEvaluated rd) (State.raisedAll_retLane s owed) _
    · rintro raises rfl
      refine congrArg Host.Outcome.next ((State.returnSweep_written hhand raises).trans ?_)
      have hhandOut : (s.raisedAll owed).writtenHand map sw =
          if s.service.replySending = true then .ready (sweepBytes ((s.raisedAll owed).statusWriter map sw))
          else .sending (sweepBytes ((s.raisedAll owed).statusWriter map sw)) := by
        rw [State.writtenHand, State.raisedAll_service]
      rw [State.raisedAll_inReturn, hhandOut]
  · cases hh : s.retLane.hand with
    | none => exact State.finishBlock_of_not_processing (by rw [hh]; nofun)
    | some h =>
      cases h with
      | processing sw map next owed =>
        rw [State.finishBlock_processing hh, State.raisedAll_inReturn]
      | ready b => exact State.finishBlock_of_not_processing (by rw [hh]; nofun)
      | sending b => exact State.finishBlock_of_not_processing (by rw [hh]; nofun)

end Sys2Proof
end

section
/-! PROOF. The feedback intake (R92 to R94). -/

namespace Sys2Proof.Machine

open Sys2Proof

/-! ### One actuator's feedback by its quality -/

theorem State.onActuator_self {s : State} {a : Actuator} {f : ActuatorLock → ActuatorLock}
    (h : f (s.actuator a) = s.actuator a) : s.onActuator a f = s := by
  have hacts : s.interlock.acts.alter a f = s.interlock.acts := by
    refine Vector.ext_entry fun i => ?_
    rw [Vector.entry_alter]
    split_ifs with hi
    · subst hi
      exact h
    · rfl
  unfold State.onActuator
  rw [hacts]

theorem State.onActuator_congr {s : State} {a : Actuator} {f k : ActuatorLock → ActuatorLock}
    (h : f (s.actuator a) = k (s.actuator a)) : s.onActuator a f = s.onActuator a k := by
  unfold State.onActuator
  rw [Vector.alter_congr (v := s.interlock.acts) h]

section
variable {s : State} {a : Actuator} {sl : Slot} {number : Half}

theorem State.faultRaise?_of_quality (h : qualityOf sl.quality ≠ .fault) : s.faultRaise? a sl number = none :=
  if_neg fun hc => h hc.1

theorem State.faultRaise?_of_unarmed (h : (s.actuator a).armed = false) : s.faultRaise? a sl number = none :=
  if_neg fun hc => by rw [h] at hc; cases hc.2

theorem State.takeFeedback_quiet (h : s.faultRaise? a sl number = none) :
    s.takeFeedback a sl number = s.onActuator a (fun x => x.noteFeedback sl) := by
  rw [State.takeFeedback, h]
  rfl

theorem ActuatorLock.noteFeedback_good (h : qualityOf sl.quality = .good) (x : ActuatorLock) : x.noteFeedback sl =
    { x with seed := if sl.value.toInt.natAbs ≤ 400000 then some sl.value.toInt else x.seed, armed := true } := by
  have hrange : (-Config.forceMax ≤ sl.value.toInt ∧ sl.value.toInt ≤ Config.forceMax) ↔
      sl.value.toInt.natAbs ≤ 400000 := by
    show -400000 ≤ _ ∧ _ ≤ 400000 ↔ _
    omega
  simp only [ActuatorLock.noteFeedback, h, ActuatorLock.goodFeedback, hrange]

theorem ActuatorLock.noteFeedback_none (h : qualityOf sl.quality = .none) (x : ActuatorLock) :
    x.noteFeedback sl = x := by simp only [ActuatorLock.noteFeedback, h]

theorem ActuatorLock.noteFeedback_fault (h : qualityOf sl.quality = .fault) (x : ActuatorLock) :
    x.noteFeedback sl = { x with armed := false } := by simp only [ActuatorLock.noteFeedback, h]

theorem ActuatorLock.noteFeedback_other (hgood : qualityOf sl.quality ≠ .good) (hnone : qualityOf sl.quality ≠ .none)
    (hfault : qualityOf sl.quality ≠ .fault) (x : ActuatorLock) : x.noteFeedback sl = { x with armed := true } := by
  unfold ActuatorLock.noteFeedback
  cases h : qualityOf sl.quality with
  | good => exact absurd h hgood
  | none => exact absurd h hnone
  | fault => exact absurd h hfault
  | held | limited | saturated | uncomp | uncal => rfl

/-- R93: an armed source whose slot reports FAULT. -/
theorem State.takeFeedback_fault (hq : qualityOf sl.quality = .fault) (harmed : (s.actuator a).armed = true) :
    s.takeFeedback a sl number =
      (s.onActuator a (fun x => { x with armed := false })).raised (s.driveRaise a number) := by
  have hraise : s.faultRaise? a sl number = some (s.driveRaise a number) := if_pos ⟨hq, harmed⟩
  rw [State.takeFeedback, hraise,
    State.onActuator_congr (k := fun x => { x with armed := false }) (ActuatorLock.noteFeedback_fault hq _)]
  rfl

end

/-- R94: the mask of a drive-fault raise. -/
theorem State.driveRaise_eq (s : State) (a : Actuator) (number : Half) : s.driveRaise a number =
    { source := .drive a, level := (s.actuator a).level, action := .unload
      mask := (match (s.actuator a).group with
        | none => 0
        | some g => BitVec.twoPow 6 g.val)
      sweep := number, capture := true, handed := .drive } := by
  unfold State.driveRaise
  cases (s.actuator a).group with
  | none => rfl
  | some g =>
    dsimp only
    rw [maskOf_singleton]

/-! ### The intake of a sweep -/

/-- What the slot of an actuator's FEEDBACK role, if it is present, makes of the actuator. -/
def ActuatorLock.noted (slot : Option (Nat × Slot)) (x : ActuatorLock) : ActuatorLock :=
  match slot with
  | none => x
  | some (_, sl) => x.noteFeedback sl

/-- The raise that the slot of an actuator's FEEDBACK role makes. -/
def State.notedRaise? (s : State) (slot : Option (Nat × Slot)) (number : Half) (a : Actuator) : Option Raise :=
  match slot with
  | none => none
  | some (_, sl) => s.faultRaise? a sl number

/-- The actuators of a list noted. -/
def notedActs (slot : Actuator → Option (Nat × Slot)) (l : List Actuator) (acts : Vector ActuatorLock 16) :
    Vector ActuatorLock 16 :=
  acts.alterAll (fun a x => if a ∈ l then x.noted (slot a) else x)

section
variable {slot : Actuator → Option (Nat × Slot)} {number : Half}

/-- R92: one actuator of the intake. -/
def State.feed (slot : Actuator → Option (Nat × Slot)) (number : Half) (s : State) (a : Actuator) : State :=
  (s.onActuator a (fun x => x.noted (slot a))).raisedAll (s.notedRaise? (slot a) number a).toList

theorem State.feed_eq (s : State) (a : Actuator) : s.feed slot number a =
    match slot a with
    | none => s
    | some (_, sl) => s.takeFeedback a sl number := by
  unfold State.feed
  cases slot a with
  | none => exact State.onActuator_self rfl
  | some p => rfl

theorem State.feed_acts (s : State) (a : Actuator) :
    (s.feed slot number a).interlock.acts = s.interlock.acts.alter a (fun x => x.noted (slot a)) :=
  congrArg (fun t : State => t.interlock.acts) (State.raisedAll_leaves _ _)

theorem notedActs_cons {a : Actuator} {l : List Actuator} (ha : a ∉ l) (acts : Vector ActuatorLock 16) :
    notedActs slot l (acts.alter a (fun x => x.noted (slot a))) = notedActs slot (a :: l) acts := by
  refine Vector.ext_entry fun i => ?_
  rw [notedActs, notedActs, Vector.entry_alterAll, Vector.entry_alterAll, Vector.entry_alter]
  by_cases hi : i = a
  · subst hi
    rw [if_neg ha, if_pos rfl, if_pos List.mem_cons_self]
  · rw [if_neg hi]
    exact if_congr (by rw [List.mem_cons, or_iff_right hi]) rfl rfl

theorem State.notedRaise?_congr {s t : State} {a : Actuator} (h : t.actuator a = s.actuator a)
    (sl : Option (Nat × Slot)) : t.notedRaise? sl number a = s.notedRaise? sl number a := by
  unfold State.notedRaise? State.faultRaise? State.driveRaise
  rw [h]

/-- R94: the actuators taken one after the other are those noted all at once, their raises handed over in order: a raise
reads and changes no seed and no arming. -/
theorem State.foldl_feed {l : List Actuator} (hl : l.Nodup) (s : State) : l.foldl (State.feed slot number) s =
    (s.withActs (notedActs slot l s.interlock.acts)).raisedAll
      (l.filterMap fun a => s.notedRaise? (slot a) number a) := by
  induction l generalizing s with
  | nil =>
    have hnone : notedActs slot [] s.interlock.acts = s.interlock.acts :=
      Vector.ext_entry fun i => (Vector.entry_alterAll _ _ _).trans (if_neg List.not_mem_nil)
    rw [hnone]
    rfl
  | cons a l ih =>
    obtain ⟨ha, hrest⟩ := List.nodup_cons.1 hl
    have hraises : (l.filterMap fun b => (s.feed slot number a).notedRaise? (slot b) number b) =
        l.filterMap fun b => s.notedRaise? (slot b) number b := by
      refine List.filterMap_congr fun b hb => State.notedRaise?_congr ?_ _
      have hne : b ≠ a := fun e => ha (e ▸ hb)
      rw [State.actuator, State.feed_acts, Vector.entry_alter_of_ne _ _ hne]
      rfl
    have hacts : (s.feed slot number a).withActs (notedActs slot l (s.feed slot number a).interlock.acts) =
        (s.withActs (notedActs slot (a :: l) s.interlock.acts)).raisedAll (s.notedRaise? (slot a) number a).toList := by
      rw [State.feed_acts, notedActs_cons ha, State.feed, ← State.raisedAll_withActs]
      rfl
    rw [List.foldl_cons, ih hrest, hraises, hacts]
    cases hra : s.notedRaise? (slot a) number a with
    | none =>
      simp only [List.filterMap_cons, hra]
      rfl
    | some r =>
      simp only [List.filterMap_cons, hra]
      rfl

end

theorem State.feedbackIntake_eq (s : State) (map : List Binding) (sw : Sweep) : s.feedbackIntake map sw =
    allActuators.foldl (State.feed (fun a => present? s.crack map sw.slots (.feedback a)) sw.number) s := by
  have hnodup : allActuators.Nodup := List.nodup_ofFn_ofInjective Function.injective_id
  rw [State.foldl_feed hnodup]
  have hnoted : s.feedbackNoted { map := map, slots := sw.slots } = s.withActs
      (notedActs (fun a => present? s.crack map sw.slots (.feedback a)) allActuators s.interlock.acts) := by
    have hacts : notedActs (fun a => present? s.crack map sw.slots (.feedback a)) allActuators s.interlock.acts =
        s.interlock.acts.alterAll (fun a x => x.noted (present? s.crack map sw.slots (.feedback a))) := by
      refine Vector.ext_entry fun i => ?_
      have hi : i ∈ allActuators := List.mem_ofFn.2 ⟨i, rfl⟩
      rw [notedActs, Vector.entry_alterAll, Vector.entry_alterAll, if_pos hi]
    rw [hacts]
    rfl
  rw [← hnoted]
  rfl

end Sys2Proof.Machine

namespace Sys2Proof
open Sys2Proof.Machine

/-- Settles O40, by the quality of the slot, and by the intake taken actuator by actuator. -/
theorem feedbackTaken : Obligations.FeedbackTaken := by
  unfold Obligations.FeedbackTaken
  constructor
  · intro s a sl number t v
    refine ⟨fun hgood => ?_, fun hnone => ?_, fun hgood hnone hfault => ?_, fun hfault harmed => ?_,
      fun hfault harmed => ?_⟩
    · refine (State.takeFeedback_quiet (State.faultRaise?_of_quality (by rw [hgood]; decide))).trans ?_
      exact State.onActuator_congr (ActuatorLock.noteFeedback_good hgood _)
    · refine (State.takeFeedback_quiet (State.faultRaise?_of_quality (by rw [hnone]; decide))).trans ?_
      exact State.onActuator_self (ActuatorLock.noteFeedback_none hnone _)
    · refine (State.takeFeedback_quiet (State.faultRaise?_of_quality hfault)).trans ?_
      exact State.onActuator_congr (ActuatorLock.noteFeedback_other hgood hnone hfault _)
    · refine (State.takeFeedback_quiet (State.faultRaise?_of_unarmed harmed)).trans ?_
      refine State.onActuator_self ((ActuatorLock.noteFeedback_fault hfault _).trans ?_)
      rw [← harmed]
    · have ht : t = _ := State.takeFeedback_fault hfault harmed
      have hact : t.actuator a = { s.actuator a with armed := false } := by
        rw [ht, State.actuator_raised, State.actuator_onActuator, if_pos rfl]
      refine ⟨by rw [hact], by rw [hact], fun hentry => ⟨?_, fun g hgroup hst => ?_⟩, ?_⟩
      · have halarm := State.raised_alarm (s.onActuator a (fun x => { x with armed := false })) (s.driveRaise a number)
        have hnew : ((s.onActuator a (fun x => { x with armed := false })).alarm.entry?
            (s.driveRaise a number).source).isSome = false := by
          rw [Option.isSome_eq_false_iff, Option.isNone_iff_eq_none]
          exact hentry
        rw [hnew, if_neg (by decide)] at halarm
        rw [ht, halarm]
        exact ⟨_, mem_insertEntry.2 (.inl rfl), rfl, rfl, rfl, rfl⟩
      · have hmask : (s.driveRaise a number).mask.getLsbD g.val = true := by
          rw [State.driveRaise, hgroup]
          exact maskOf_getLsbD.2 List.mem_cons_self
        have hlock := State.lock_raised_moved (s := s.onActuator a (fun x => { x with armed := false }))
          (r := s.driveRaise a number) hentry hmask (.inr ⟨rfl, hst⟩)
        rw [State.groupState, ht, hlock]
        exact ⟨rfl, rfl⟩
      · exact ht.trans (congrArg (State.raised _) (State.driveRaise_eq s a number))
  · intro s map sw
    rw [State.feedbackIntake_eq]
    refine congrArg (fun f => allActuators.foldl f s) (funext fun u => funext fun a => ?_)
    exact (State.feed_eq u a).trans (by cases present? s.crack map sw.slots (.feedback a) <;> rfl)

end Sys2Proof
end

section
/-! PROOF. The watch state of a strain channel: bands, runs, moves, and the raises of the strain block (R106 to R111). -/

namespace Sys2Proof.Machine

open Sys2Proof

/-! ### Bands (R107 to R109) -/

theorem Band.milder_iff {a b : Band} : a.milder b = true ↔ a.toCode < b.toCode := by simp [Band.milder]

theorem Band.mildest_eq (a b : Band) : a.mildest b = if a.toCode < b.toCode then a else b := by
  simp only [Band.mildest, Band.milder_iff]

theorem Band.severest_eq (a b : Band) : a.severest b = if a.toCode < b.toCode then b else a := by
  simp only [Band.severest, Band.milder_iff]

/-- R107: with a hysteresis that leaves room between the warn limits, a value in the release band of a milder state is in its
plain band too. -/
theorem LimitRecord.plainBand_le_releaseBand {l : LimitRecord} (e : Int) (hlow : l.stopLow ≤ l.warnLow)
    (hhigh : l.warnHigh ≤ l.stopHigh) : (l.plainBand e).toCode ≤ (l.releaseBand e).toCode := by
  have hnormal : l.warnLow + l.hysteresis ≤ e ∧ e ≤ l.warnHigh - l.hysteresis →
      ¬(e < l.stopLow ∨ l.stopHigh < e) ∧ ¬(e < l.warnLow ∨ l.warnHigh < e) := by omega
  have hwarn : l.stopLow + l.hysteresis ≤ e ∧ e ≤ l.stopHigh - l.hysteresis →
      ¬(e < l.stopLow ∨ l.stopHigh < e) := by omega
  unfold LimitRecord.releaseBand
  split
  · next h =>
    obtain ⟨hstop, hin⟩ := hnormal h
    rw [LimitRecord.plainBand, if_neg hstop, if_neg hin]
  · split
    · next h =>
      rw [LimitRecord.plainBand, if_neg (hwarn h)]
      split <;> decide
    · unfold LimitRecord.plainBand
      split
      · exact le_rfl
      · split <;> decide

/-! ### Runs and moves (R108 to R110) -/

theorem runBand_more (r b : Band) :
    runBand .moreSevere (some (.moreSevere, r)) b = if r.toCode < b.toCode then r else b := r.mildest_eq b

theorem runBand_less (r b : Band) :
    runBand .lessSevere (some (.lessSevere, r)) b = if r.toCode < b.toCode then b else r := r.severest_eq b

theorem runCount_same (dir : Direction) (r : Band) (n : Nat) : runCount dir (some (dir, r)) n = n + 1 := if_pos rfl

section
variable {dir : Direction} {old : Option (Direction × Band)}

theorem runBand_fresh (h : ∀ b : Band, old ≠ some (dir, b)) (b : Band) : runBand dir old b = b := by
  rcases old with - | ⟨d, r⟩
  · cases dir <;> rfl
  · cases dir <;> cases d
    · exact absurd rfl (h r)
    · rfl
    · rfl
    · exact absurd rfl (h r)

theorem runCount_fresh (h : ∀ b : Band, old ≠ some (dir, b)) (n : Nat) : runCount dir old n = 1 := by
  rcases old with - | ⟨d, r⟩
  · rfl
  · exact if_neg fun hd => h r (by rw [hd])

theorem runCount_cases (dir : Direction) (old : Option (Direction × Band)) (n : Nat) :
    runCount dir old n = n + 1 ∨ runCount dir old n = 1 := by
  by_cases h : ∃ b, old = some (dir, b)
  · obtain ⟨b, rfl⟩ := h
    exact .inl (runCount_same dir b n)
  · exact .inr (runCount_fresh (fun b hb => h ⟨b, hb⟩) n)

end

namespace StrainChannel
variable {ch : StrainChannel} {d : Nat} {dir : Direction} {b : Band}

theorem runOn_below (h : runCount dir ch.run ch.debounce < d) :
    ch.runOn d dir b =
      { ch with debounce := runCount dir ch.run ch.debounce, run := some (dir, runBand dir ch.run b) } :=
  if_neg (Nat.not_le.2 h)

theorem runOn_reached (h : d ≤ runCount dir ch.run ch.debounce) :
    ch.runOn d dir b = ch.moveTo (runBand dir ch.run b) := if_pos h

/-- R108 to R110: a sweep in a direction, with the count and the band that the run then has. -/
theorem runOn_counted (d : Nat) {c : Band} {n : Nat} (hb : runBand dir ch.run b = c)
    (hn : runCount dir ch.run ch.debounce = n) :
    (n < d → ch.runOn d dir b = { ch with debounce := n, run := some (dir, c) }) ∧
    (d ≤ n → (ch.runOn d dir b).watch = c ∧ (ch.runOn d dir b).debounce = 0 ∧ (ch.runOn d dir b).run = none) := by
  subst hb hn
  refine ⟨fun h => runOn_below h, fun h => ?_⟩
  rw [runOn_reached h]
  exact ⟨rfl, rfl, rfl⟩

variable {l : LimitRecord} {e : Int}

theorem judgeValue_severe (h : ch.watch.toCode < (l.plainBand e).toCode) :
    ch.judgeValue l e = ch.runOn l.debounce .moreSevere (l.plainBand e) := if_pos (Band.milder_iff.2 h)

theorem judgeValue_mild (hp : ¬ch.watch.toCode < (l.plainBand e).toCode)
    (hr : (l.releaseBand e).toCode < ch.watch.toCode) :
    ch.judgeValue l e = ch.runOn l.debounce .lessSevere (l.releaseBand e) :=
  (if_neg (mt Band.milder_iff.1 hp)).trans (if_pos (Band.milder_iff.2 hr))

theorem judgeValue_steady (hp : ¬ch.watch.toCode < (l.plainBand e).toCode)
    (hr : ¬(l.releaseBand e).toCode < ch.watch.toCode) : ch.judgeValue l e = ch.breakRun :=
  (if_neg (mt Band.milder_iff.1 hp)).trans (if_neg (mt Band.milder_iff.1 hr))

/-- R108: the band of a run toward more severe lies beyond the watch state and no further than the sweep's own. -/
theorem runBand_severe (hwf : ch.runWf) (h : ch.watch.toCode < b.toCode) :
    ch.watch.toCode < (runBand .moreSevere ch.run b).toCode ∧ (runBand .moreSevere ch.run b).toCode ≤ b.toCode := by
  by_cases hrun : ∃ r, ch.run = some (.moreSevere, r)
  · obtain ⟨r, hr⟩ := hrun
    have hbeyond : ch.watch.toCode < r.toCode := by simpa only [runWf, hr] using hwf
    rw [hr, runBand_more]
    split
    · next hlt => exact ⟨hbeyond, hlt.le⟩
    · exact ⟨h, le_rfl⟩
  · rw [runBand_fresh fun r hr => hrun ⟨r, hr⟩]
    exact ⟨h, le_rfl⟩

/-- R109: the band of a run toward less severe lies beyond the watch state and no further than the sweep's own. -/
theorem runBand_mild (hwf : ch.runWf) (h : b.toCode < ch.watch.toCode) :
    (runBand .lessSevere ch.run b).toCode < ch.watch.toCode ∧ b.toCode ≤ (runBand .lessSevere ch.run b).toCode := by
  by_cases hrun : ∃ r, ch.run = some (.lessSevere, r)
  · obtain ⟨r, hr⟩ := hrun
    have hbeyond : r.toCode < ch.watch.toCode := by simpa only [runWf, hr] using hwf
    rw [hr, runBand_less]
    split
    · exact ⟨h, le_rfl⟩
    · next hlt => exact ⟨hbeyond, Nat.not_lt.1 hlt⟩
  · rw [runBand_fresh fun r hr => hrun ⟨r, hr⟩]
    exact ⟨h, le_rfl⟩

/-- R110: the count that reaches the debounce is one more than the run had, or the first. -/
theorem debounce_reached (h : d ≤ runCount dir ch.run ch.debounce) : d ≤ ch.debounce + 1 ∨ d ≤ 1 :=
  (runCount_cases dir ch.run ch.debounce).imp h.trans_eq h.trans_eq

/-- R107 to R110: a judged sweep leaves the watch state with only count and run changed, or moves it at the debounce to a band
beyond it, in one direction, and no further than the sweep's own band. -/
theorem judgeValue_cases (l : LimitRecord) (e : Int) (hwf : ch.runWf) :
    (∃ n run, ch.judgeValue l e = { ch with debounce := n, run := run }) ∨
    ∃ b : Band, ch.judgeValue l e = ch.moveTo b ∧ (l.debounce ≤ ch.debounce + 1 ∨ l.debounce ≤ 1) ∧
      (ch.watch.toCode < b.toCode ∧ b.toCode ≤ (l.plainBand e).toCode ∨
        b.toCode < ch.watch.toCode ∧ (l.releaseBand e).toCode ≤ b.toCode) := by
  by_cases hp : ch.watch.toCode < (l.plainBand e).toCode
  · rw [judgeValue_severe hp]
    rcases Nat.lt_or_ge (runCount .moreSevere ch.run ch.debounce) l.debounce with hn | hn
    · exact .inl ⟨_, _, runOn_below hn⟩
    · exact .inr ⟨_, runOn_reached hn, debounce_reached hn, .inl (runBand_severe hwf hp)⟩
  · by_cases hr : (l.releaseBand e).toCode < ch.watch.toCode
    · rw [judgeValue_mild hp hr]
      rcases Nat.lt_or_ge (runCount .lessSevere ch.run ch.debounce) l.debounce with hn | hn
      · exact .inl ⟨_, _, runOn_below hn⟩
      · exact .inr ⟨_, runOn_reached hn, debounce_reached hn, .inr (runBand_mild hwf hr)⟩
    · exact .inl ⟨_, _, judgeValue_steady hp hr⟩

/-- R112: a move arms the source where it leads out of STOP. -/
theorem moveTo_armed (ch : StrainChannel) (b : Band) :
    (ch.moveTo b).armed = (ch.armed || (ch.watch == .stop && b != .stop)) := by
  simp only [moveTo]
  split
  · next h => simp [h.1, h.2]
  · next h =>
    have : (ch.watch == .stop && b != .stop) = false := by simpa using h
    rw [this, Bool.or_false]

theorem moveTo_warnCount (ch : StrainChannel) (b : Band) :
    (ch.moveTo b).warnCount = if ch.watch = .normal ∧ b = .warn then
      (if ch.warnCount < 65535 then ch.warnCount + 1 else ch.warnCount) else ch.warnCount := rfl

theorem runOn_armed (h : ch.watch ≠ .stop) : (ch.runOn d dir b).armed = ch.armed := by
  have hwatch : (ch.watch == Band.stop) = false := beq_eq_false_iff_ne.2 h
  unfold runOn
  dsimp only
  split
  · rw [moveTo_armed, hwatch, Bool.false_and, Bool.or_false]
  · rfl

/-- R112: only a channel in STOP is re-armed by a judged sweep. -/
theorem judgeValue_armed (l : LimitRecord) (e : Int) (h : ch.watch ≠ .stop) : (ch.judgeValue l e).armed = ch.armed := by
  unfold judgeValue
  split
  · exact runOn_armed h
  · split
    · exact runOn_armed h
    · rfl

/-- R111: a move into STOP raises the channel where its source is armed and its record has a level. -/
theorem raises_iff (old : Band) :
    ch.raises old l = true ↔ old ≠ .stop ∧ ch.watch = .stop ∧ 1 ≤ l.level ∧ ch.armed = true := by
  simp only [raises, Bool.and_eq_true, bne_iff_ne, beq_iff_eq, decide_eq_true_eq, and_assoc]

theorem latestTaken_eq (ch : StrainChannel) (v : Option (Int × Quality)) :
    ch.latestTaken v = { ch with latest := if v.isSome = true then v else ch.latest } := by
  cases v <;> rfl

theorem afterSweep_raised (hl : ch.limit = some l) (q : Quality) :
    (ch.afterSweep (some (e, q))).2 = ((ch.latestTaken (some (e, q))).judgeValue l e).raises ch.watch l := by
  rw [afterSweep_judged hl]
  split
  · next h => exact h.symm
  · next h => exact (Bool.eq_false_iff.2 h).symm

theorem afterSweep_channel (hl : ch.limit = some l) (q : Quality) :
    (ch.afterSweep (some (e, q))).1 =
      { (ch.latestTaken (some (e, q))).judgeValue l e with
        armed := ((ch.latestTaken (some (e, q))).judgeValue l e).armed && !(ch.afterSweep (some (e, q))).2 } := by
  rw [afterSweep_judged hl]
  split
  · simp
  · simp

end StrainChannel

/-! ### The raises of the strain block (R111) -/

theorem allStrain_mem (c : Fin 256) : c ∈ allStrain := List.mem_ofFn.2 ⟨c, rfl⟩

theorem allStrain_sorted : allStrain.Pairwise (· < ·) := List.pairwise_ofFn.2 fun _ _ h => h

/-- The raise that a channel owes after a sweep, if it owes one. -/
def Reading.strainRaise? (rd : Reading) (s : State) (number : Half) (c : Fin 256) : Option Raise :=
  match (s.strain.entry c).limit with
  | none => none
  | some l => if ((s.strain.entry c).afterSweep (rd.conditioned s c)).2 then some (strainRaise c l number) else none

section
variable {rd : Reading} {s : State} {number : Half} {r : Raise}

theorem Reading.strainRaises_eq : rd.strainRaises s number = allStrain.filterMap (rd.strainRaise? s number) := rfl

theorem Reading.strainRaise?_eq_some {c : Fin 256} : rd.strainRaise? s number c = some r ↔
    ∃ l : LimitRecord, (s.strain.entry c).limit = some l ∧
      ((s.strain.entry c).afterSweep (rd.conditioned s c)).2 = true ∧ r = strainRaise c l number := by
  unfold Reading.strainRaise?
  cases hl : (s.strain.entry c).limit with
  | none => exact ⟨nofun, nofun⟩
  | some l =>
    rw [Option.ite_none_right_eq_some, Option.some.injEq]
    constructor
    · rintro ⟨hraised, hr⟩
      exact ⟨l, rfl, hraised, hr.symm⟩
    · rintro ⟨m, hm, hraised, hr⟩
      exact ⟨hraised, Option.some.inj hm ▸ hr.symm⟩

theorem Reading.mem_strainRaises :
    r ∈ rd.strainRaises s number ↔ ∃ (c : Fin 256) (l : LimitRecord), (s.strain.entry c).limit = some l ∧
      ((s.strain.entry c).afterSweep (rd.conditioned s c)).2 = true ∧ r = strainRaise c l number := by
  rw [Reading.strainRaises_eq, List.mem_filterMap]
  exact exists_congr fun c => (and_iff_right (allStrain_mem c)).trans Reading.strainRaise?_eq_some

theorem Reading.strainRaises_sorted (rd : Reading) (s : State) (number : Half) :
    (rd.strainRaises s number).Pairwise fun r q => r.source.number < q.source.number := by
  refine List.pairwise_filterMap.2 (allStrain_sorted.imp fun {c d} hcd r hr q hq => ?_)
  obtain ⟨l, -, -, rfl⟩ := Reading.strainRaise?_eq_some.1 hr
  obtain ⟨m, -, -, rfl⟩ := Reading.strainRaise?_eq_some.1 hq
  exact Nat.add_lt_add_left hcd 128

end

end Sys2Proof.Machine

namespace Sys2Proof
open Sys2Proof.Machine

/-- Settles O42, by the bands, the run that a judged sweep goes on with or begins, and the move at the debounce. -/
theorem watchStateMoves : Obligations.WatchStateMoves := by
  unfold Obligations.WatchStateMoves
  refine ⟨fun l e => ⟨rfl, rfl⟩, fun l e _ hlow hhigh _ => ?_, fun ch l e hwf => ?_, fun ch l e => ?_, fun ch v => ?_,
    fun s rd number => ?_⟩
  · have hle := LimitRecord.plainBand_le_releaseBand e hlow hhigh
    exact ⟨hle, fun watch h => absurd (h.1.trans_le hle) h.2.asymm⟩
  · have hkept := StrainChannel.judgeValue_runWf l e hwf
    dsimp only
    rcases StrainChannel.judgeValue_cases l e hwf with ⟨n, run, h⟩ | ⟨b, h, hdebounce, hband⟩ <;> rw [h] at hkept ⊢
    · refine ⟨fun hne => absurd rfl hne, fun hne => absurd rfl hne, fun hlt => absurd hlt (lt_irrefl _),
        fun hlt => absurd hlt (lt_irrefl _), ?_, ?_, hkept, rfl, rfl, rfl⟩
      · refine (if_neg fun hmoved => ?_).symm
        exact Band.noConfusion (hmoved.1.symm.trans hmoved.2)
      · have : (ch.watch == .stop && ch.watch != .stop) = false := by cases ch.watch <;> rfl
        exact (Bool.or_false _).symm.trans (congrArg (ch.armed || ·) this.symm)
    · exact ⟨fun _ => hdebounce, fun _ => ⟨rfl, rfl⟩,
        fun hlt => hband.elim And.right fun hmild => absurd hmild.1 hlt.asymm,
        fun hlt => hband.elim (fun hsevere => absurd hsevere.1 hlt.asymm) And.right,
        ch.moveTo_warnCount b, ch.moveTo_armed b, hkept, rfl, rfl, rfl⟩
  · intro p r t counted
    refine ⟨fun hp => ?_, fun hp hr => ?_, fun hp hr => StrainChannel.judgeValue_steady hp hr⟩
    · have ht : t = ch.runOn l.debounce .moreSevere p := StrainChannel.judgeValue_severe hp
      simp only [counted, ht]
      refine ⟨fun b hb => StrainChannel.runOn_counted _ ?_ ?_, fun hfresh =>
        StrainChannel.runOn_counted _ (runBand_fresh hfresh p) (runCount_fresh hfresh _)⟩
      · rw [hb, runBand_more]
      · rw [hb, runCount_same]
    · have ht : t = ch.runOn l.debounce .lessSevere r := StrainChannel.judgeValue_mild hp hr
      simp only [counted, ht]
      refine ⟨fun b hb => StrainChannel.runOn_counted _ ?_ ?_, fun hfresh =>
        StrainChannel.runOn_counted _ (runBand_fresh hfresh r) (runCount_fresh hfresh _)⟩
      · rw [hb, runBand_less]
        rcases Nat.lt_trichotomy b.toCode r.toCode with h | h | h
        · rw [if_pos h, if_neg h.asymm]
        · rw [if_neg h.not_lt, if_neg h.symm.not_lt]
          revert h
          cases b <;> cases r <;> decide
        · rw [if_neg h.asymm, if_pos h]
      · rw [hb, runCount_same]
  · intro kept t
    have hkept : kept = ch.latestTaken v := (ch.latestTaken_eq v).symm
    refine ⟨fun h => ?_, fun l e q hl hv => ?_⟩
    · rw [hkept]
      exact StrainChannel.afterSweep_unjudged h
    · subst hv
      rw [hkept]
      refine ⟨?_, StrainChannel.afterSweep_channel hl q⟩
      rw [StrainChannel.afterSweep_raised hl, StrainChannel.raises_iff]
      refine and_congr_right fun hwatch => and_congr_right fun _ => and_congr_right fun _ => ?_
      rw [StrainChannel.judgeValue_armed (ch := ch.latestTaken (some (e, q))) l e hwatch]
      rfl
  · exact ⟨fun c => Vector.entry_alterAll _ _ _, rfl, fun r => Reading.mem_strainRaises.trans
      ⟨fun ⟨c, l, hl, hraised, hr⟩ => ⟨c, l, hl, hraised, by rw [hr]; rfl, hr⟩,
        fun ⟨c, l, hl, hraised, _, hr⟩ => ⟨c, l, hl, hraised, hr⟩⟩, rd.strainRaises_sorted s number⟩

end Sys2Proof
end

section
/-! PROOF. The crack watch: WIRE and AE channels, coincidence sets, readings, and the raises of a sweep (R118 to R129). -/

namespace Sys2Proof.Machine

open Sys2Proof

/-! ### WIRE channels (R119 to R121) -/

namespace CrackChannel
variable (ch : CrackChannel) (rec : CrackRecord)

theorem leaveFault_eq : ch.leaveFault =
    { ch with sensorFault := false, armed := ch.armed || (ch.sensorFault && !ch.condition) } := by
  unfold leaveFault
  split
  · next h => rw [h, Bool.true_and]
  · next h =>
    obtain ⟨record, condition, fault, debounce, accumulator, armed⟩ := ch
    obtain rfl : fault = false := Bool.eq_false_iff.2 h
    exact congrArg (CrackChannel.mk record condition false debounce accumulator) (Bool.or_false armed).symm

theorem openCircuit_eq : ch.openCircuit rec =
    { channel := { ch with
        sensorFault := true, debounce := 0
        armed := ch.armed && (ch.openCircuit rec).raise.isNone }
      raise := if ch.sensorFault = false ∧ 1 ≤ rec.level ∧ ch.armed = true then some .note else none } := by
  have hcond : (!ch.sensorFault && decide (1 ≤ rec.level) && ch.armed) = true ↔
      ch.sensorFault = false ∧ 1 ≤ rec.level ∧ ch.armed = true := by simp [and_assoc]
  unfold openCircuit
  split
  · next h => rw [if_pos (hcond.1 h)]; simp
  · next h => rw [if_neg (mt hcond.2 h)]; simp

variable {ch rec}

/-- R120, R125: the reading that changes the condition makes or re-arms, and keeps what a reading does not touch. -/
theorem becomeTrue_eq : ch.becomeTrue rec =
    { channel := { ch with condition := true, debounce := 0, armed := ch.armed && (ch.becomeTrue rec).raise.isNone }
      raise := if 1 ≤ rec.level ∧ ch.armed = true then some rec.action else none } := by
  unfold becomeTrue
  split <;> simp

variable {broken : Bool}

theorem takeReading_same (h : broken = ch.condition) :
    ch.takeReading rec broken = { channel := { ch with debounce := 0 }, raise := none } := if_pos h

theorem takeReading_counted (h : broken ≠ ch.condition) (hd : ch.debounce + 1 < rec.debounce) :
    ch.takeReading rec broken = { channel := { ch with debounce := ch.debounce + 1 }, raise := none } :=
  (if_neg h).trans (if_neg (Nat.not_le.2 hd))

theorem takeReading_reached (h : broken ≠ ch.condition) (hd : rec.debounce ≤ ch.debounce + 1) :
    ch.takeReading rec broken = if broken then ch.becomeTrue rec else ch.becomeFalse :=
  (if_neg h).trans (if_pos hd)

/-- R119, R121: a reading of intact or broken, taken by the channel out of SENSOR_FAULT. -/
theorem wireStep_reading : ch.wireStep rec (if broken then .broken else .intact) =
    ({ ch with sensorFault := false, armed := ch.armed || (ch.sensorFault && !ch.condition) } : CrackChannel).takeReading
      rec broken := by
  rw [← leaveFault_eq]
  cases broken <;> rfl

/-- R120: what every reading of intact or broken keeps. -/
theorem takeReading_keeps : (ch.takeReading rec broken).channel.sensorFault = ch.sensorFault ∧
    (ch.takeReading rec broken).channel.record = ch.record ∧
    (ch.takeReading rec broken).channel.accumulator = ch.accumulator := by
  unfold takeReading
  split
  · exact ⟨rfl, rfl, rfl⟩
  · split
    · split
      · rw [becomeTrue_eq]; exact ⟨rfl, rfl, rfl⟩
      · exact ⟨rfl, rfl, rfl⟩
    · exact ⟨rfl, rfl, rfl⟩

/-! ### AE channels (R123 to R125) -/

section
variable {hits a : Nat} (ha : accumulate ch.accumulator rec.decay hits = a)
include ha

theorem aeStep_rises (hc : ch.condition = false) (h : rec.threshold ≤ a) : ch.aeStep rec hits =
    { channel := { ch with accumulator := a, condition := true, armed := ch.armed && !decide (1 ≤ rec.level) }
      raise := if 1 ≤ rec.level ∧ ch.armed = true then some rec.action else none } := by
  subst ha
  have hrise : (!ch.condition && decide (rec.threshold ≤ accumulate ch.accumulator rec.decay hits)) = true := by
    simp [hc, h]
  refine (if_pos hrise).trans ?_
  by_cases hl : 1 ≤ rec.level <;> cases ch.armed <;> simp [hl]

theorem aeStep_falls (hc : ch.condition = true) (h : a < rec.threshold / 2) : ch.aeStep rec hits =
    { channel := { ch with accumulator := a, condition := false, armed := true }, raise := none } := by
  simp [aeStep, hc, ha, h]

theorem aeStep_stays_false (hc : ch.condition = false) (h : a < rec.threshold) : ch.aeStep rec hits =
    { channel := { ch with accumulator := a }, raise := none } := by
  simp [aeStep, hc, ha, Nat.not_le.2 h]

theorem aeStep_stays_true (hc : ch.condition = true) (h : rec.threshold / 2 ≤ a) : ch.aeStep rec hits =
    { channel := { ch with accumulator := a }, raise := none } := by
  simp [aeStep, hc, ha, Nat.not_lt.2 h]

end

end CrackChannel

/-! ### Coincidence sets (R128) -/

namespace CoincidenceSet
variable {st : CoincidenceSet} {rec : CoincidenceRecord}

theorem raises_iff (h : st.record = some rec) (crack : Vector CrackChannel 64) :
    st.raises crack = true ↔ rec.minimum ≤ rec.count crack ∧ st.armed = true ∧ 1 ≤ rec.level := by
  simp [raises, h, and_assoc]

theorem afterSweep_none (h : st.record = none) (crack : Vector CrackChannel 64) : st.afterSweep crack = st := by
  simp only [afterSweep, h]

theorem afterSweep_eq (h : st.record = some rec) (crack : Vector CrackChannel 64) : st.afterSweep crack =
    { st with
      lastCount := rec.count crack
      armed := if rec.count crack < rec.minimum then true else if 1 ≤ rec.level then false else st.armed } := by
  have hraises := raises_iff h crack
  simp only [afterSweep, h]
  congr 1
  by_cases hn : rec.count crack < rec.minimum
  · rw [if_pos hn, if_pos hn, if_neg fun hr => absurd (hraises.1 hr).1 (Nat.not_le.2 hn)]
  · rw [if_neg hn, if_neg hn]
    by_cases hl : 1 ≤ rec.level
    · rw [if_pos hl]
      cases harmed : st.armed
      · exact ite_self _
      · exact if_pos (hraises.2 ⟨Nat.not_lt.1 hn, harmed, hl⟩)
    · rw [if_neg hl, if_neg fun hr => hl (hraises.1 hr).2.2]

end CoincidenceSet

/-! ### Readings and hits (R119, R122) -/

section
variable {i : Nat} {sl : Slot}

theorem wireReadingOf_good (h : qualityOf sl.quality = .good) : wireReadingOf (some (i, sl)) =
    if sl.value.toInt = 0 then .intact else if sl.value.toInt = 1 then .broken else .openCircuit := by
  have hzero : sl.value.toInt = 0 ↔ sl.value = 0 := by rw [← BitVec.toInt_inj]; rfl
  have hone : sl.value.toInt = 1 ↔ sl.value = 1 := by rw [← BitVec.toInt_inj]; rfl
  simp only [wireReadingOf, h, hzero, hone]

theorem wireReadingOf_fault (h : qualityOf sl.quality = .fault) : wireReadingOf (some (i, sl)) = .openCircuit := by
  simp only [wireReadingOf, h]

theorem wireReadingOf_other (hgood : qualityOf sl.quality ≠ .good) (hfault : qualityOf sl.quality ≠ .fault) :
    wireReadingOf (some (i, sl)) = .none := by
  unfold wireReadingOf
  dsimp only
  split
  · next h => exact absurd h hgood
  · next h => exact absurd h hfault
  all_goals rfl

theorem hitsOf_good (h : qualityOf sl.quality = .good) : hitsOf (some (i, sl)) =
    if sl.value.toInt < 0 then 0 else if sl.value.toInt ≤ 65535 then sl.value.toInt.toNat else 65535 := by
  rw [hitsOf, if_pos h, Config.hitMax]
  split
  · omega
  · split <;> omega

theorem hitsOf_other (h : qualityOf sl.quality ≠ .good) : hitsOf (some (i, sl)) = 0 := if_neg h

end

/-! ### The raises of a sweep (R129) -/

/-- The raise that a set owes after a sweep, if it owes one. -/
def Reading.setRaise? (rd : Reading) (s : State) (number : Half) (n : Fin 8) : Option Raise :=
  match (s.sets.entry n).record with
  | none => none
  | some rec => if (s.sets.entry n).raises (rd.cracked s) then some (setRaise n rec number) else none

/-- The raise that a crack channel owes after a sweep, if it owes one. -/
def Reading.crackRaise? (rd : Reading) (s : State) (number : Half) (k : Fin 64) : Option Raise :=
  match (s.crack.entry k).record, (rd.crackStep s k).raise with
  | some rec, some act => some (crackRaise k rec act number)
  | _, _ => none

theorem Source.number_coincidence (n : Fin 8) : (Source.coincidence n).number = 32 + n.val := by
  show 31 + (n.val + 1) = 32 + n.val
  omega

theorem allSets_mem (n : Fin 8) : n ∈ allSets := List.mem_ofFn.2 ⟨n, rfl⟩

theorem allSets_sorted : allSets.Pairwise (· < ·) := List.pairwise_ofFn.2 fun _ _ h => h

theorem allCracks_mem (k : Fin 64) : k ∈ allCracks := List.mem_ofFn.2 ⟨k, rfl⟩

theorem allCracks_sorted : allCracks.Pairwise (· < ·) := List.pairwise_ofFn.2 fun _ _ h => h

section
variable {rd : Reading} {s : State} {number : Half} {r : Raise}

theorem Reading.setRaises_eq : rd.setRaises s number = allSets.filterMap (rd.setRaise? s number) := rfl

theorem Reading.crackRaises_eq : rd.crackRaises s number = allCracks.filterMap (rd.crackRaise? s number) := rfl

theorem Reading.setRaise?_eq_some {n : Fin 8} : rd.setRaise? s number n = some r ↔
    ∃ rec : CoincidenceRecord, (s.sets.entry n).record = some rec ∧
      (s.sets.entry n).raises (rd.cracked s) = true ∧ r = setRaise n rec number := by
  unfold Reading.setRaise?
  cases hrec : (s.sets.entry n).record with
  | none => exact ⟨nofun, nofun⟩
  | some rec =>
    rw [Option.ite_none_right_eq_some, Option.some.injEq]
    constructor
    · rintro ⟨hraised, hr⟩
      exact ⟨rec, rfl, hraised, hr.symm⟩
    · rintro ⟨m, hm, hraised, hr⟩
      exact ⟨hraised, Option.some.inj hm ▸ hr.symm⟩

theorem Reading.crackRaise?_eq_some {k : Fin 64} : rd.crackRaise? s number k = some r ↔
    ∃ (rec : CrackRecord) (act : Action), (s.crack.entry k).record = some rec ∧
      (rd.crackStep s k).raise = some act ∧ r = crackRaise k rec act number := by
  unfold Reading.crackRaise?
  cases hrec : (s.crack.entry k).record with
  | none => exact ⟨nofun, nofun⟩
  | some rec =>
    cases hact : (rd.crackStep s k).raise with
    | none => exact ⟨nofun, nofun⟩
    | some act =>
      constructor
      · intro hr
        exact ⟨rec, act, rfl, rfl, (Option.some.inj hr).symm⟩
      · rintro ⟨rec', act', hrec', hact', rfl⟩
        rw [Option.some.inj hrec', Option.some.inj hact']

theorem Reading.mem_watchRaises : r ∈ rd.watchRaises s number ↔
    (∃ (n : Fin 8) (rec : CoincidenceRecord), (s.sets.entry n).record = some rec ∧
      (s.sets.entry n).raises (rd.cracked s) = true ∧ r = setRaise n rec number) ∨
    ∃ (k : Fin 64) (rec : CrackRecord) (act : Action), (s.crack.entry k).record = some rec ∧
      (rd.crackStep s k).raise = some act ∧ r = crackRaise k rec act number := by
  rw [Reading.watchRaises, List.mem_append, Reading.setRaises_eq, Reading.crackRaises_eq, List.mem_filterMap,
    List.mem_filterMap]
  exact or_congr (exists_congr fun n => (and_iff_right (allSets_mem n)).trans Reading.setRaise?_eq_some)
    (exists_congr fun k => (and_iff_right (allCracks_mem k)).trans Reading.crackRaise?_eq_some)

/-- R129: the sources of the sets lie below those of the channels, and each kind is handed over in ascending number. -/
theorem Reading.watchRaises_sorted (rd : Reading) (s : State) (number : Half) :
    (rd.watchRaises s number).Pairwise fun r q => r.source.number < q.source.number := by
  have hsets : (rd.setRaises s number).Pairwise fun r q => r.source.number < q.source.number := by
    refine List.pairwise_filterMap.2 (allSets_sorted.imp fun {m n} hmn r hr q hq => ?_)
    obtain ⟨_, -, -, rfl⟩ := Reading.setRaise?_eq_some.1 hr
    obtain ⟨_, -, -, rfl⟩ := Reading.setRaise?_eq_some.1 hq
    simp only [setRaise, Source.number_coincidence]
    exact Nat.add_lt_add_left hmn 32
  have hcracks : (rd.crackRaises s number).Pairwise fun r q => r.source.number < q.source.number := by
    refine List.pairwise_filterMap.2 (allCracks_sorted.imp fun {j k} hjk r hr q hq => ?_)
    obtain ⟨_, _, -, -, rfl⟩ := Reading.crackRaise?_eq_some.1 hr
    obtain ⟨_, _, -, -, rfl⟩ := Reading.crackRaise?_eq_some.1 hq
    exact Nat.add_lt_add_left hjk 64
  refine List.pairwise_append.2 ⟨hsets, hcracks, fun r hr q hq => ?_⟩
  obtain ⟨n, -, hn⟩ := List.mem_filterMap.1 hr
  obtain ⟨k, -, hk⟩ := List.mem_filterMap.1 hq
  obtain ⟨_, -, -, rfl⟩ := Reading.setRaise?_eq_some.1 hn
  obtain ⟨_, _, -, -, rfl⟩ := Reading.crackRaise?_eq_some.1 hk
  have hn := Source.number_coincidence n
  show (Source.coincidence n).number < 64 + k.val
  omega

end

end Sys2Proof.Machine

namespace Sys2Proof
open Sys2Proof.Machine

/-- Settles O43, by the reading or hits that a channel takes, the count of each set, and the sources in ascending number. -/
theorem crackChannelsEvaluated : Obligations.CrackChannelsEvaluated := by
  unfold Obligations.CrackChannelsEvaluated
  refine ⟨⟨fun ch rec => ⟨rfl, ?_, fun broken => ?_⟩, fun ch rec hits => ?_⟩, fun st rec crack hrec => ?_,
    ⟨⟨rfl, rfl⟩, fun i sl => ?_, fun ch slot => ⟨fun hrec => ?_, fun rec hrec => ⟨fun hkind => ?_, fun hkind => ?_⟩⟩⟩,
    fun s rd number => ?_⟩
  · show (ch.openCircuit rec).channel.sensorFault = true ∧ _
    have hraise := congrArg CrackStep.raise (ch.openCircuit_eq rec)
    have hchannel := congrArg CrackStep.channel (ch.openCircuit_eq rec)
    exact ⟨hchannel ▸ rfl, hchannel ▸ rfl, hchannel ▸ rfl, hraise, congrArg CrackChannel.armed hchannel⟩
  · intro t armed
    have ht : t = ({ ch with sensorFault := false, armed := armed } : CrackChannel).takeReading rec broken :=
      CrackChannel.wireStep_reading
    obtain ⟨hfault, hrecord, haccumulator⟩ := CrackChannel.takeReading_keeps (rec := rec) (broken := broken)
      (ch := { ch with sensorFault := false, armed := armed })
    refine ⟨ht ▸ hfault, ht ▸ hrecord, ht ▸ haccumulator, fun hsame => ?_, fun hne hd => ?_, fun hne hd => ?_⟩
    · rw [ht, CrackChannel.takeReading_same (ch := { ch with sensorFault := false, armed := armed }) hsame]
      exact ⟨rfl, rfl, rfl, rfl⟩
    · rw [ht, CrackChannel.takeReading_counted (ch := { ch with sensorFault := false, armed := armed }) hne hd]
      exact ⟨rfl, rfl, rfl, rfl⟩
    · rw [ht, CrackChannel.takeReading_reached (ch := { ch with sensorFault := false, armed := armed }) hne hd]
      cases broken with
      | false => exact ⟨rfl, rfl, fun _ => ⟨rfl, rfl⟩, nofun⟩
      | true =>
        have heq := CrackChannel.becomeTrue_eq (ch := { ch with sensorFault := false, armed := armed }) (rec := rec)
        have hchannel := congrArg CrackStep.channel heq
        exact ⟨congrArg CrackChannel.condition hchannel, congrArg CrackChannel.debounce hchannel, nofun,
          fun _ => ⟨congrArg CrackStep.raise heq, congrArg CrackChannel.armed hchannel⟩⟩
  · intro a t
    have ha : accumulate ch.accumulator rec.decay hits = a := rfl
    clear_value a
    cases hc : ch.condition with
    | false =>
      rcases Nat.lt_or_ge a rec.threshold with hlow | hhigh
      · have ht : t = _ := CrackChannel.aeStep_stays_false ha hc hlow
        simp [ht, hc, Nat.not_le.2 hlow]
      · have ht : t = _ := CrackChannel.aeStep_rises ha hc hhigh
        by_cases hl : 1 ≤ rec.level <;> cases harmed : ch.armed <;> simp [ht, hhigh, hl, harmed]
    | true =>
      rcases Nat.lt_or_ge a (rec.threshold / 2) with hlow | hhigh
      · have ht : t = _ := CrackChannel.aeStep_falls ha hc hlow
        simp [ht, hlow]
      · have ht : t = _ := CrackChannel.aeStep_stays_true ha hc hhigh
        simp [ht, hc, hhigh, Nat.not_lt.2 hhigh]
  · intro n
    rw [CoincidenceSet.afterSweep_eq hrec]
    exact ⟨rfl, hrec, CoincidenceSet.raises_iff hrec crack, rfl⟩
  · exact ⟨fun h => ⟨wireReadingOf_good h, hitsOf_good h⟩,
      fun h => ⟨wireReadingOf_fault h, hitsOf_other (by rw [h]; decide)⟩,
      fun hgood hfault => ⟨wireReadingOf_other hgood hfault, hitsOf_other hgood⟩⟩
  · simp only [CrackChannel.afterSweep, hrec]
  · simp only [CrackChannel.afterSweep, hrec, hkind]
  · simp only [CrackChannel.afterSweep, hrec, hkind]
  · refine ⟨fun k => Vector.entry_alterAll _ _ _, fun n => ?_, rfl, fun r => Reading.mem_watchRaises.trans
      (or_congr (exists_congr fun n => exists_congr fun rec => ?_)
        (exists_congr fun k => exists_congr fun rec => exists_congr fun act => ?_)), rd.watchRaises_sorted s number⟩
    · refine (Vector.entry_alterAll _ _ _).trans ?_
      split
      · next hrec => exact CoincidenceSet.afterSweep_none hrec _
      · rfl
    · exact and_congr_right fun _ => and_congr_right fun _ => ⟨fun hr => ⟨hr ▸ Source.number_coincidence n, hr⟩, And.right⟩
    · exact and_congr_right fun _ => and_congr_right fun _ => ⟨fun hr => ⟨hr ▸ rfl, hr⟩, And.right⟩

end Sys2Proof
end

section
/-! PROOF. A service frame applied whole: its items in order, the results they leave, the orphan result, and its reply (R164 to
R172). -/

namespace Sys2Proof.Machine

open Sys2Proof

/-! ### What an item leaves of the service handler (R166, R167, R172) -/

/-- R172: a RESTART that ends the frame. -/
def Item.Ends (it : Item) : Prop := it.code = 0x2F ∧ it.index = 0 ∧ it.args = []

/-- The results of the frame, with the orphan result that a standing qualifier may yet bring (R168). -/
def ServiceHandler.given (v : ServiceHandler) : Nat :=
  v.results.length + if v.page.isSome = true ∨ v.quiet = true then 1 else 0

section
variable (v : ServiceHandler)

theorem ServiceHandler.results_le_given : v.results.length ≤ v.given := Nat.le_add_right _ _

theorem ServiceHandler.given_spent_le : v.spent.given ≤ v.given := by
  rw [ServiceHandler.given, if_neg (by simp)]
  exact v.results_le_given

theorem ServiceHandler.given_withResult (r : ItemResult) : (v.withResult r).given = v.given + 1 := by
  unfold ServiceHandler.given ServiceHandler.withResult
  rw [List.length_append]
  exact Nat.add_right_comm _ _ _

/-- An accepted qualifier leaves at most its own mark to be answered. -/
theorem ServiceHandler.given_le_of_results {w : ServiceHandler} (h : w.results = v.results) : w.given ≤ v.given + 1 := by
  have hw : w.given ≤ w.results.length + 1 := Nat.add_le_add_left (by split <;> decide) _
  rw [h] at hw
  exact hw.trans (Nat.add_le_add_right v.results_le_given 1)

end

/-- What an item makes of a service handler: at most one result more, and the frame ended with the restart pending exactly where
the item is a RESTART that ends it. -/
structure Item.Serves (it : Item) (v w : ServiceHandler) : Prop where
  given : w.given ≤ v.given + 1
  ended : (¬it.Ends ∧ w.frameEnded = v.frameEnded ∧ w.restartPending = v.restartPending) ∨
    (it.Ends ∧ w.frameEnded = true ∧ w.restartPending = true)

/-- R166, R167: what a command makes of the service handler that its rule leaves. -/
theorem State.command_service (s : State) (code : Byte) (index : Half) (body : Option (Fin 4) → State → Answer) :
    (s.command code index body).service = (body s.service.page (s.onService ServiceHandler.spent)).state.service ∨
    ∃ r : ItemResult, (s.command code index body).service =
      (body s.service.page (s.onService ServiceHandler.spent)).state.service.withResult r := by
  unfold State.command
  dsimp only
  split
  · exact .inl rfl
  · exact .inr ⟨_, rfl⟩

theorem State.command_given {s : State} {body : Option (Fin 4) → State → Answer} (code : Byte) (index : Half)
    (h : (body s.service.page (s.onService ServiceHandler.spent)).state.service.given ≤ s.service.given) :
    (s.command code index body).service.given ≤ s.service.given + 1 := by
  rcases s.command_service code index body with hc | ⟨r, hc⟩ <;> rw [hc]
  · exact h.trans (Nat.le_succ _)
  · rw [ServiceHandler.given_withResult]
    exact Nat.succ_le_succ h

/-- R166: neither mark of a RESTART is touched by putting the result behind the others. -/
theorem State.command_marks (s : State) (code : Byte) (index : Half) (body : Option (Fin 4) → State → Answer) :
    (s.command code index body).service.frameEnded =
      (body s.service.page (s.onService ServiceHandler.spent)).state.service.frameEnded ∧
    (s.command code index body).service.restartPending =
      (body s.service.page (s.onService ServiceHandler.spent)).state.service.restartPending := by
  rcases s.command_service code index body with hc | ⟨r, hc⟩ <;> rw [hc] <;> exact ⟨rfl, rfl⟩

theorem Item.serves_of_tame {it : Item} {s : State} {body : Option (Fin 4) → State → Answer} (hends : ¬it.Ends)
    (h : (body s.service.page (s.onService ServiceHandler.spent)).state.service.undropped = s.service.spent.undropped) :
    it.Serves s.service (s.command it.code it.index body).service := by
  have hgiven := congrArg ServiceHandler.given h
  have hended := congrArg ServiceHandler.frameEnded h
  have hpending := congrArg ServiceHandler.restartPending h
  obtain ⟨hmark, hrestart⟩ := s.command_marks it.code it.index body
  exact ⟨State.command_given _ _ (hgiven.trans_le s.service.given_spent_le),
    .inl ⟨hends, hmark.trans hended, hrestart.trans hpending⟩⟩

theorem applyItem_restart {it : Item} (h : it.code = 0x2F) (s : State) :
    applyItem it s = itemRestart it.index it.args s := by
  obtain ⟨code, index, args⟩ := it
  obtain rfl : code = 0x2F := h
  rfl

theorem restart_serves {it : Item} (h : it.code = 0x2F) (s : State) : it.Serves s.service (applyItem it s).service := by
  rw [applyItem_restart h, itemRestart, ← h]
  rcases restartBody_cases it.index it.args (s.onService ServiceHandler.spent) with
    ⟨code, -, hbad, hbody⟩ | ⟨hindex, hargs, hbody⟩
  · exact Item.serves_of_tame (fun hends => hbad.elim (· hends.2.1) (· hends.2.2))
      (by rw [hbody]; rfl)
  · have hmarks := s.command_marks it.code it.index fun _ s => restartBody it.index it.args s
    simp only [hbody] at hmarks
    refine ⟨State.command_given _ _ ?_, .inr ⟨⟨h, hindex, hargs⟩, hmarks.1, hmarks.2⟩⟩
    rw [hbody]
    exact s.service.given_spent_le

theorem itemPage_serves (it : Item) (hends : ¬it.Ends) (s : State) :
    it.Serves s.service (itemPage it.index it.args s).service := by
  unfold itemPage
  split
  · exact ⟨s.service.given_le_of_results rfl, .inl ⟨hends, rfl, rfl⟩⟩
  · exact ⟨(s.service.given_withResult _).le, .inl ⟨hends, rfl, rfl⟩⟩

theorem itemQuiet_serves (it : Item) (hends : ¬it.Ends) (s : State) :
    it.Serves s.service (itemQuiet it.index it.args s).service := by
  unfold itemQuiet
  split
  · exact ⟨s.service.given_le_of_results rfl, .inl ⟨hends, rfl, rfl⟩⟩
  · exact ⟨(s.service.given_withResult _).le, .inl ⟨hends, rfl, rfl⟩⟩

theorem applyItem_page {it : Item} (h : it.code = 0x01) (s : State) : applyItem it s = itemPage it.index it.args s := by
  obtain ⟨code, index, args⟩ := it
  obtain rfl : code = 0x01 := h
  rfl

theorem applyItem_quiet {it : Item} (h : it.code = 0x02) (s : State) : applyItem it s = itemQuiet it.index it.args s := by
  obtain ⟨code, index, args⟩ := it
  obtain rfl : code = 0x02 := h
  rfl

theorem Item.isQualifier_iff {it : Item} : it.isQualifier = true ↔ it.code = 0x01 ∨ it.code = 0x02 := by
  rw [Item.isQualifier, codePage, codeQuiet, Bool.or_eq_true, beq_iff_eq, beq_iff_eq]

theorem applyItem_serves (it : Item) (s : State) : it.Serves s.service (applyItem it s).service := by
  by_cases hrestart : it.code = 0x2F
  · exact restart_serves hrestart s
  · have hends : ¬it.Ends := fun h => hrestart h.1
    by_cases hpage : it.code = 0x01
    · rw [applyItem_page hpage]
      exact itemPage_serves it hends s
    · by_cases hquiet : it.code = 0x02
      · rw [applyItem_quiet hquiet]
        exact itemQuiet_serves it hends s
      · have hq : it.isQualifier = false :=
          Bool.eq_false_iff.2 fun h => (Item.isQualifier_iff.1 h).elim hpage hquiet
        rcases applyItem_readsAs hq s with ⟨hcode, -⟩ | ⟨-, heq⟩ | ⟨-, body, heq, htame⟩
        · exact absurd hcode hrestart
        · rw [heq]
          exact ⟨Nat.le_succ _, .inl ⟨hends, rfl, rfl⟩⟩
        · rw [heq]
          exact Item.serves_of_tame hends (htame s.service.page (s.onService ServiceHandler.spent)).1

/-! ### The items of a frame in order (R165, R172) -/

theorem applyItems_cons (it : Item) (rest : List Item) (s : State) : applyItems (it :: rest) s =
    if (applyItem it s).service.frameEnded = true then applyItem it s else applyItems rest (applyItem it s) := rfl

theorem applyItems_cons_ends {it : Item} (h : it.Ends) (rest : List Item) (s : State) :
    applyItems (it :: rest) s = applyItem it s :=
  (applyItem_serves it s).ended.elim (fun hnot => absurd h hnot.1) fun hends => if_pos hends.2.1

theorem applyItem_frameEnded {it : Item} (h : ¬it.Ends) (s : State) :
    (applyItem it s).service.frameEnded = s.service.frameEnded :=
  (applyItem_serves it s).ended.elim (fun hnot => hnot.2.1) fun hends => absurd hends.1 h

theorem applyItems_given (items : List Item) (s : State) :
    (applyItems items s).service.given ≤ s.service.given + items.length := by
  induction items generalizing s with
  | nil => exact le_rfl
  | cons it rest ih =>
    have hone := (applyItem_serves it s).given
    rw [applyItems_cons, List.length_cons]
    split
    · omega
    · have hrest := ih (applyItem it s)
      omega

/-- R172: a frame that is ended leaves the restart pending. -/
theorem applyItems_restartPending (items : List Item) {s : State}
    (h : s.service.frameEnded = true → s.service.restartPending = true) :
    (applyItems items s).service.frameEnded = true → (applyItems items s).service.restartPending = true := by
  induction items generalizing s with
  | nil => exact h
  | cons it rest ih =>
    have hone : (applyItem it s).service.frameEnded = true → (applyItem it s).service.restartPending = true := by
      rcases (applyItem_serves it s).ended with ⟨-, hended, hpending⟩ | ⟨-, -, hpending⟩
      · rw [hended, hpending]
        exact h
      · exact fun _ => hpending
    rw [applyItems_cons]
    split
    · exact hone
    · exact ih hone

/-- R166: an item that no command stands for. -/
theorem applyItem_unknown {it : Item} (h : ∀ c : Instr, itemOf? c ≠ some it) (s : State) :
    applyItem it s = s.answered it.code it.index .unknown [] := by
  have hcode : ∀ (c : Instr) (code : Byte), itemOf? c = some { code := code, index := it.index, args := it.args } →
      it.code.toNat = code.toNat → False := fun c code hc heq =>
    h c (hc.trans (by rw [← BitVec.eq_of_toNat_eq heq]))
  unfold applyItem
  split
  case h_1 e => exact (hcode (.page it.index it.args) _ rfl e).elim
  case h_2 e => exact (hcode (.quiet it.index it.args) _ rfl e).elim
  case h_3 e => exact (hcode (.map it.index it.args) _ rfl e).elim
  case h_4 e => exact (hcode (.actuator it.index it.args) _ rfl e).elim
  case h_5 e => exact (hcode (.group it.index it.args) _ rfl e).elim
  case h_6 e => exact (hcode (.pageGroup it.index it.args) _ rfl e).elim
  case h_7 e => exact (hcode (.pageAct it.index it.args) _ rfl e).elim
  case h_8 e => exact (hcode (.shape it.index it.args) _ rfl e).elim
  case h_9 e => exact (hcode (.cal it.index it.args) _ rfl e).elim
  case h_10 e => exact (hcode (.limit it.index it.args) _ rfl e).elim
  case h_11 e => exact (hcode (.crack it.index it.args) _ rfl e).elim
  case h_12 e => exact (hcode (.coinc it.index it.args) _ rfl e).elim
  case h_13 e => exact (hcode (.block it.index it.args) _ rfl e).elim
  case h_14 e => exact (hcode (.captureCfg it.index it.args) _ rfl e).elim
  case h_15 e => exact (hcode (.marker it.index it.args) _ rfl e).elim
  case h_16 e => exact (hcode (.watch it.index it.args) _ rfl e).elim
  case h_17 e => exact (hcode (.floor it.index it.args) _ rfl e).elim
  case h_18 e => exact (hcode (.commit it.index it.args) _ rfl e).elim
  case h_19 e => exact (hcode (.release it.index it.args) _ rfl e).elim
  case h_20 e => exact (hcode (.hold it.index it.args) _ rfl e).elim
  case h_21 e => exact (hcode (.unload it.index it.args) _ rfl e).elim
  case h_22 e => exact (hcode (.disengage it.index it.args) _ rfl e).elim
  case h_23 e => exact (hcode (.ack it.index it.args) _ rfl e).elim
  case h_24 e => exact (hcode (.resetSchedule it.index it.args) _ rfl e).elim
  case h_25 e => exact (hcode (.capture it.index it.args) _ rfl e).elim
  case h_26 e => exact (hcode (.clearFlags it.index it.args) _ rfl e).elim
  case h_27 e => exact (hcode (.restart it.index it.args) _ rfl e).elim
  case h_28 e => exact (hcode (.read it.index it.args) _ rfl e).elim
  case h_29 e => exact (hcode (.readPending it.index it.args) _ rfl e).elim
  case h_30 e => exact (hcode (.readCapture it.index it.args) _ rfl e).elim
  case h_31 e => exact (hcode (.readResetCause it.index it.args) _ rfl e).elim
  case h_32 => exact State.command_refused rfl

/-! ### The orphan result (R168) -/

theorem State.orphan_of_spent {s : State}
    (h : s.service.frameEnded = true ∨ s.service.page = none ∧ s.service.quiet = false) (items : List Item) :
    s.orphan items = s := by
  refine if_neg fun hcond => ?_
  simp only [Bool.and_eq_true, Bool.not_eq_true', Bool.or_eq_true] at hcond
  rcases h with hended | ⟨hpage, hquiet⟩
  · exact nomatch hended.symm.trans hcond.1
  · rw [hpage, hquiet] at hcond
    exact hcond.2.elim nofun nofun

theorem lastQualifier?_append {before after : List Item} {it : Item} (hit : it.isQualifier = true)
    (hafter : ∀ x ∈ after, x.isQualifier = false) : lastQualifier? (before ++ it :: after) = some it := by
  have hnone : after.reverse.find? Item.isQualifier = none :=
    List.find?_eq_none.2 fun x hx => Bool.eq_false_iff.1 (hafter x (List.mem_reverse.1 hx))
  rw [lastQualifier?, List.reverse_append, List.reverse_cons, List.append_assoc, List.find?_append, hnone,
    Option.none_or]
  exact List.find?_cons_of_pos hit

theorem State.orphan_of_left {s : State} {items : List Item} {it : Item} (hended : s.service.frameEnded = false)
    (hleft : s.service.page ≠ none ∨ s.service.quiet = true) (hlast : lastQualifier? items = some it) :
    s.orphan items = s.onService (fun v =>
      v.withResult { code := it.code, result := .orphan, index := it.index, words := [] }) := by
  have hcond : (!s.service.frameEnded && (s.service.page.isSome || s.service.quiet)) = true := by
    rw [hended, Bool.not_false, Bool.true_and, Bool.or_eq_true, Option.isSome_iff_ne_none]
    exact hleft
  rw [State.orphan, if_pos hcond, hlast]

/-- R168: the orphan result is the one that the qualifier left stood for, and it ends no frame. -/
theorem State.orphan_serves (s : State) (items : List Item) :
    (s.orphan items).service.results.length ≤ s.service.given ∧
    (s.orphan items).service.frameEnded = s.service.frameEnded ∧
    (s.orphan items).service.restartPending = s.service.restartPending := by
  by_cases hleft : s.service.page ≠ none ∨ s.service.quiet = true
  · have hgiven : s.service.given = s.service.results.length + 1 := by
      rw [ServiceHandler.given, if_pos (hleft.imp_left Option.isSome_iff_ne_none.2)]
    cases hended : s.service.frameEnded with
    | true =>
      rw [State.orphan_of_spent (.inl hended)]
      exact ⟨s.service.results_le_given, hended, rfl⟩
    | false =>
      cases hlast : lastQualifier? items with
      | none =>
        have horphan : s.orphan items = s := by
          unfold State.orphan
          rw [hlast]
          exact ite_self _
        rw [horphan]
        exact ⟨s.service.results_le_given, hended, rfl⟩
      | some it =>
        rw [State.orphan_of_left hended hleft hlast, hgiven]
        exact ⟨List.length_append.le, hended, rfl⟩
  · push Not at hleft
    rw [State.orphan_of_spent (.inr ⟨hleft.1, Bool.eq_false_iff.2 hleft.2⟩)]
    exact ⟨s.service.results_le_given, rfl, rfl⟩

/-! ### The frame taken, and its reply (R5, R164, R171) -/

theorem State.settle_outbound_idle {s : State} (hhand : s.outLane.hand = none)
    (hhead : ∀ w : Waiting, s.outLane.waiting.head? = some w → w.bypassed = false) : s.settle .outbound = s := by
  rw [State.settle, State.onLane_id s .outbound (Lane.takeBypassed_of_checked hhead)]
  exact State.startPort_outbound_none fun b hb => nomatch hhand.symm.trans hb

/-- R7: with a reply in the queue, and no frame of the return lane ready or in sending, a reply is in sending at RET-OUT. -/
theorem State.startPort_ret_replying {s : State} (hready : ∀ b : List Byte, s.retLane.hand ≠ some (.ready b))
    (hsending : ∀ b : List Byte, s.retLane.hand ≠ some (.sending b)) (hreplies : s.service.replies.isEmpty = false) :
    s.startPort .ret = { s with service := { s.service with replySending := true } } := by
  cases hr : s.service.replySending with
  | true => rw [State.startPort_ret_of_reply hr, ← hr]
  | false => rw [State.startPort_ret_idle hready hsending hr, hreplies, Bool.not_false]

/-- R7: what RET-OUT leaves when it goes on. -/
theorem State.startPort_ret_leaves (s : State) :
    (s.startPort .ret).outLane = s.outLane ∧ (s.startPort .ret).unit = s.unit ∧ (s.startPort .ret).pending = s.pending ∧
    (s.startPort .ret).service = { s.service with replySending := (s.startPort .ret).service.replySending } := by
  rcases s.startPort_ret_cases with ⟨-, h⟩ | ⟨b, -, -, h⟩ | ⟨-, -, -, h⟩ <;> rw [h] <;> exact ⟨rfl, rfl, rfl, rfl⟩

/-- R5, R164: the frame at the head of the outbound lane, a checked service frame to the node address, is taken. -/
theorem State.serviceFrame_eq {s : State} {w : Waiting} {rest : List Waiting} (hhand : s.outLane.hand = none)
    (hwaiting : s.outLane.waiting = w :: rest) (hchecked : w.bypassed = false) (hkind : frameKind w.bytes = 0xA2)
    (hdestination : byteAt w.bytes 3 = s.unit.nodeAddress.setWidth 8) : s.serviceFrame =
      (({ s with outLane := { s.outLane with waiting := rest } } : State).takeFrame w.bytes).settle .outbound := by
  have hnext : s.outLane.next? = some w := Lane.next?_eq_some.2 ⟨hhand, by rw [hwaiting]; rfl, hchecked⟩
  have hdropped : s.onLane .outbound Lane.dropHead = { s with outLane := { s.outLane with waiting := rest } } := by
    rw [State.onLane_outbound, Lane.dropHead, hwaiting, List.tail_cons]
  rw [State.serviceFrame, hnext, ← hdropped]
  exact if_pos (isServiceTo_iff.2 ⟨hkind, hdestination⟩)

/-- R165, R168: what the items of a frame and the orphan result leave, from the frame's beginning. -/
theorem Touches.frameApplied (items : List Item) (s : State) :
    Touches s ((Machine.applyItems items (s.onService ServiceHandler.openFrame)).orphan items) :=
  ((Touches.one (.service _ rfl rfl)).trans (Touches.applyItems _ _)).trans (Touches.orphan _ _)

theorem frameApplied_results (items : List Item) (s : State) :
    ((applyItems items (s.onService ServiceHandler.openFrame)).orphan items).service.results.length ≤ items.length := by
  have hgiven := applyItems_given items (s.onService ServiceHandler.openFrame)
  have hopen : (s.onService ServiceHandler.openFrame).service.given = 0 := rfl
  rw [hopen, Nat.zero_add] at hgiven
  exact (State.orphan_serves _ items).1.trans hgiven

theorem frameApplied_restartPending (items : List Item) (s : State) :
    ((applyItems items (s.onService ServiceHandler.openFrame)).orphan items).service.frameEnded = true →
    ((applyItems items (s.onService ServiceHandler.openFrame)).orphan items).service.restartPending = true := by
  obtain ⟨-, hended, hpending⟩ := State.orphan_serves (applyItems items (s.onService ServiceHandler.openFrame)) items
  rw [hended, hpending]
  exact applyItems_restartPending items (s := s.onService ServiceHandler.openFrame) nofun

end Sys2Proof.Machine

namespace Sys2Proof
open Sys2Proof.Machine

/-- Settles O60, by the frame's beginning, what each item makes of the service handler, and the reply that goes to RET-OUT. -/
theorem serviceFrameTaken : Obligations.ServiceFrameTaken := by
  unfold Obligations.ServiceFrameTaken
  refine ⟨fun s w rest hhand hwaiting hchecked hkind hdestination hhead => ?_, fun s it rest => ?_, fun s items => ?_⟩
  · intro consumed
    have hexec : exec .serviceFrame s = .next ((consumed.takeFrame w.bytes).settle .outbound) :=
      congrArg Host.Outcome.next (State.serviceFrame_eq hhand hwaiting hchecked hkind hdestination)
    refine ⟨fun hfull => ?_, fun hroom => ?_⟩
    · have htaken : consumed.takeFrame w.bytes = { consumed with service := { s.service with svcDrop := true } } :=
        if_neg (Nat.not_lt.2 hfull)
      rw [hexec, htaken, State.settle_outbound_idle (by exact hhand) (by exact hhead)]
    · intro settled opened items applied results restart u t
      have hsettled : settled = consumed.finishBlock := by
        simp only [settled]
        split
        · next hprocessing =>
          rw [State.finishBlock_processing (s := consumed) hprocessing]
          exact (State.inReturn_of_retLane (State.raisedAll_retLane consumed _) _).symm
        · next hnot => exact (State.finishBlock_of_not_processing (s := consumed) hnot).symm
      have happlied : applied = (applyItems items (settled.onService ServiceHandler.openFrame)).orphan items := rfl
      have kept := (Touches.frameApplied items settled).keeps
      have hresults := frameApplied_results items settled
      have hpending := frameApplied_restartPending items settled
      rw [← happlied] at kept hresults hpending
      have hreplies : u.service.replies = s.service.replies ++ [applied.buildReply (halfAt w.bytes 4)] := by
        show applied.service.replies ++ _ = _
        rw [kept.replies, hsettled, State.finishBlock_service]
      have ht : u.startPort .ret = t := by
        simp only [t]
        split
        · next b hb => exact State.startPort_ret_of_sending hb
        · next b hb =>
          split
          · next hr => exact State.startPort_ret_of_reply hr
          · next hr => exact State.startPort_ret_ready hb (Bool.eq_false_iff.2 hr)
        · next hsending hready =>
          exact State.startPort_ret_replying hready hsending (by rw [hreplies]; simp)
      obtain ⟨hout, hunit, hqueue, hservice⟩ := u.startPort_ret_leaves
      rw [ht] at hout hunit hqueue hservice
      have hlane : t.outLane = { s.outLane with waiting := rest } := by
        rw [hout]
        exact kept.outLane.trans (by rw [hsettled, State.finishBlock_outLane])
      have haddress : applied.unit.nodeAddress = s.unit.nodeAddress := by
        rw [kept.nodeAddress, hsettled, State.finishBlock_unit]
      have htaken : consumed.takeFrame w.bytes = t := by
        rw [State.takeFrame, if_pos (by exact hroom), ← hsettled]
        exact ht
      refine ⟨?_, ?_, hresults, fun hrestart => ?_, ?_, ?_, ?_, hlane, ?_, ?_⟩
      · rw [hexec, htaken, State.settle_outbound_idle (by rw [hlane]; exact hhand) (by rw [hlane]; exact hhead)]
      · rw [hservice, ← haddress]
        exact hreplies
      · rw [hservice]
        exact hpending hrestart
      · rw [hservice]; rfl
      · rw [hservice]; rfl
      · rw [hservice]; rfl
      · rw [hunit]; exact haddress
      · rw [hqueue]
        exact kept.pending.trans (by rw [hsettled, State.finishBlock_pending])
  · refine ⟨rfl, fun hended => ?_, fun c hc => exec_of_itemOf? hc s, fun h => applyItem_unknown h s⟩
    intro ends
    refine ⟨fun h => applyItems_cons_ends h rest s, fun h => ?_⟩
    have hopen : (applyItem it s).service.frameEnded = false := (applyItem_frameEnded h s).trans hended
    exact ⟨if_neg (Bool.eq_false_iff.1 hopen), hopen⟩
  · refine ⟨fun h => State.orphan_of_spent h items, fun before after it hitems hit hafter hended hleft => ?_⟩
    rw [hitems, State.orphan_of_left hended hleft (lastQualifier?_append (Item.isQualifier_iff.2 hit) fun x hx =>
      Bool.eq_false_iff.2 fun hq => (Item.isQualifier_iff.1 hq).elim (hafter x hx).1 (hafter x hx).2)]
    rfl

end Sys2Proof
end
